-- ==== Sys2Proof/Word.lean ====
section
/-! DEFINITION. The word types of the Turtle core (spec/00_scope.md R8): 8-bit data, 16-bit addresses, 32-bit
control words. -/

namespace Sys2Proof

/-- An 8-bit data value (R8): a register, an opcode, an immediate, a byte of memory, the bus. -/
abbrev Byte := BitVec 8

/-- A 16-bit address (R8): the program counter, a register pair, an address of RAM or of instruction memory. -/
abbrev Addr := BitVec 16

/-- A 16-bit instruction word (R54): the opcode in bits 15:8, the immediate in bits 7:0. -/
abbrev InstrWord := BitVec 16

/-- A raw control word (R58): 32 bits, each signal line active low. -/
abbrev ControlWord := BitVec 32

end Sys2Proof
end

