-- ==== Sys2Proof/Config.lean ====
section
/-! DEFINITION. What an implementation fixes (spec/00_scope.md R9): the link-register revision, the VM strategy, the
reading of the logic-mode carry, the 28 control signals and their bit layout. And the free values: constants with
no body, about which nothing can be proved. -/

namespace Sys2Proof

/-- The link-register revision `REV` (00_scope.md R2, R9; 42_control_flow.md R164): Revision A latches `pc`, Revision B
latches `pc_if`. The spec gives no default and covers both. -/
inductive Rev where
  | a | b
deriving DecidableEq, Repr

/-- The VM strategy `STRATEGY` (44_tracing_vm.md R191). -/
inductive Strategy where
  | interpreterOnly | tracing
deriving DecidableEq, Repr

/-- The parameter `LOGIC_CARRY` (00_scope.md R9, 40_alu.md R78): what carryFlag is in the ALU's logic mode. -/
inductive LogicCarry where
  /-- The default: computed as in arithmetic mode (R78). -/
  | asArithmetic
  /-- The alternative R78 names: a value about which nothing is claimed. -/
  | free
deriving DecidableEq, Repr

/-- The 28 control signals, in the order of the reference layout (30_encoding.md R61, R62). -/
inductive Signal where
  /-- `HLT` (42 R162). -/
  | hlt
  /-- `J` (42 R155). -/
  | j
  /-- `CarryIn` (41 R151). -/
  | carryIn
  /-- `FI` (41 R150). -/
  | fi
  /-- `XYInc` (41 R152). -/
  | xyInc
  /-- `UVInc` (41 R153). -/
  | uvInc
  /-- `LinkIn` (42 R164). -/
  | linkIn
  /-- `GO` (41 R129). -/
  | go
  /-- `HO` (41 R130). -/
  | ho
  /-- `AO` (41 R131). -/
  | ao
  /-- `BO` (41 R132). -/
  | bo
  /-- `CO` (41 R133). -/
  | co
  /-- `EO` (41 R134). -/
  | eo
  /-- `XO` (41 R135). -/
  | xo
  /-- `YO` (41 R136). -/
  | yo
  /-- `UO` (41 R137). -/
  | uo
  /-- `VO` (41 R138). -/
  | vo
  /-- `MO` (41 R139). -/
  | mo
  /-- `PO` (41 R140). -/
  | po
  /-- `AI` (41 R141). -/
  | ai
  /-- `BI` (41 R142). -/
  | bi
  /-- `DI` (41 R143). -/
  | di
  /-- `XI` (41 R144). -/
  | xi
  /-- `YI` (41 R145). -/
  | yi
  /-- `UI` (41 R146). -/
  | ui
  /-- `VI` (41 R147). -/
  | vi
  /-- `MI` (41 R148). -/
  | mi
  /-- `PI` (41 R149). -/
  | pi
deriving DecidableEq, Repr

/-- The number of a signal: its place in the list of 30_encoding.md R62. -/
def Signal.index : Signal → Fin 28
  | .hlt => 0
  | .j => 1
  | .carryIn => 2
  | .fi => 3
  | .xyInc => 4
  | .uvInc => 5
  | .linkIn => 6
  | .go => 7
  | .ho => 8
  | .ao => 9
  | .bo => 10
  | .co => 11
  | .eo => 12
  | .xo => 13
  | .yo => 14
  | .uo => 15
  | .vo => 16
  | .mo => 17
  | .po => 18
  | .ai => 19
  | .bi => 20
  | .di => 21
  | .xi => 22
  | .yi => 23
  | .ui => 24
  | .vi => 25
  | .mi => 26
  | .pi => 27

/-- The parameter `CW_LAYOUT : Signal → Fin 32` (00_scope.md R9, 30_encoding.md R62), as plain data: the bit of the raw
control word that carries each signal, listed by signal number. -/
abbrev Layout := Vector (Fin 32) 28

/-- The bit of the raw control word that carries a signal. -/
def Layout.bit (layout : Layout) (sig : Signal) : Fin 32 :=
  layout.get sig.index

/-- The reference layout (30_encoding.md R62): bits 0 to 27 in the order of R61's list, bits 28 to 31 spare. -/
def Layout.reference : Layout :=
  #v[0, 1, 2, 3, 4, 5, 6, 7, 8, 9, 10, 11, 12, 13, 14, 15, 16, 17, 18, 19, 20, 21, 22, 23, 24, 25, 26, 27]

/-- The bus outputs, in the fixed priority order of 41_pipeline_step.md R122, first to last. -/
inductive BusOutput where
  | go | ho | ao | bo | co | eo | xo | yo | uo | vo | mo | po
deriving DecidableEq, Repr

/-- The control signal of a bus output. -/
def BusOutput.signal : BusOutput → Signal
  | .go => .go
  | .ho => .ho
  | .ao => .ao
  | .bo => .bo
  | .co => .co
  | .eo => .eo
  | .xo => .xo
  | .yo => .yo
  | .uo => .uo
  | .vo => .vo
  | .mo => .mo
  | .po => .po

/-- The bus inputs (30_encoding.md R61). -/
inductive BusInput where
  | ai | bi | di | xi | yi | ui | vi | mi | pi
deriving DecidableEq, Repr

/-- The control signal of a bus input. -/
def BusInput.signal : BusInput → Signal
  | .ai => .ai
  | .bi => .bi
  | .di => .di
  | .xi => .xi
  | .yi => .yi
  | .ui => .ui
  | .vi => .vi
  | .mi => .mi
  | .pi => .pi

/-- FREE VALUE (DESIGN CHOICE, assumption 4). The byte that the device in an occupied slot answers at the n-th peripheral load the
machine makes (20_memory.md R40, R42: an oracle answer, any byte, and two loads from one address need not agree). -/
opaque Config.peripheralAnswer : Nat → Byte

/-- FREE VALUE (DESIGN CHOICE, assumption 5). What the n-th poll of the host's cancellation flag finds (43_trace_engine.md R182: a draw at
each check of a breakpoint instruction). -/
opaque Config.cancelDraw : Nat → Bool

/-- FREE VALUE (DESIGN CHOICE, assumption 6). The ALU's carryFlag in logic mode where `LOGIC_CARRY` is left free (40_alu.md R78), as a
function of the two operands, the selector and the carry input (the ALU is a pure function, R71). -/
opaque Config.freeLogicCarry : Byte → Byte → BitVec 4 → Bool → Bool

end Sys2Proof
end

