-- ==== Sys2Proof/Machine/State.lean ====
section
/-! DEFINITION. The machine's state (spec/10_state.md, 44_tracing_vm.md R190): the processor state, RAM, the trace engine's
state, the parameters fixed at construction, and the model's own fields. Plain data. -/

namespace Sys2Proof.Machine

/-- A pair (carry, equal) of flag bits; `true` is 1. The carry is active low: 0 means a carry out of bit 7 occurred
(10_state.md R22, 40_alu.md R73). -/
structure Flags where
  carry : Bool
  equal : Bool
deriving DecidableEq, Repr

/-- A guard on a recorded instruction (43_trace_engine.md R167). -/
inductive GuardKind where
  /-- Bail always. -/
  | fail
  /-- The expected value of X:Y. -/
  | address (target : Addr)
  /-- The expected latched flags. -/
  | flags (expected : Flags)
deriving DecidableEq, Repr

/-- A fetched instruction (10_state.md R29). `guard` is a set, written as a list in the order Fail, Address, Flags. -/
structure Instruction where
  opcode : Byte
  immediate : Byte
  pc : Addr
  disassembly : Option String
  guard : List GuardKind
  isBreakpoint : Bool
deriving DecidableEq, Repr

/-- The state of the pipeline core: exactly the fields of 10_state.md R14. -/
structure ProcessorState where
  /-- General register A, the ALU's first operand. -/
  a : Byte
  /-- General register B, the ALU's second operand. -/
  b : Byte
  /-- The immediate register C: the immediate of the executing instruction (R18). -/
  c : Byte
  /-- The peripheral-select register D. -/
  d : Byte
  /-- Link-hi. -/
  g : Byte
  /-- Link-lo. -/
  h : Byte
  /-- The high byte of the jump-target pair XY. -/
  x : Byte
  /-- The low byte of XY. -/
  y : Byte
  /-- The high byte of the memory-address pair UV. -/
  u : Byte
  /-- The low byte of UV. -/
  v : Byte
  /-- The ALU result register, rewritten by every non-halted step (R22). -/
  aluResult : Byte
  /-- The ALU flags (aluCarry, aluEqual), rewritten by every non-halted step (R22). -/
  aluFlags : Flags
  /-- The latched flags (carryFlag, equalFlag), written by `FI` alone (R23). -/
  flags : Flags
  /-- The program counter, two fetches ahead of the executing instruction (R20). -/
  pc : Addr
  /-- The one-cycle-delayed program counter: the address the next step fetches from (R20). -/
  pcIf : Addr
  /-- The instruction the next step decodes and executes (R20). -/
  ifId : Instruction
  /-- The held control word (R24). -/
  cw : ControlWord
  /-- The tick counter, unbounded (R26). -/
  uptime : Nat
deriving DecidableEq, Repr

/-- Bytes by address, in canonical form: addresses strictly rising and below 65536, no entry equal to 0x00, which is what an
unlisted address reads as (for RAM: assumption 1; for instruction memory: the no-op word of 20_memory.md R33). -/
abbrev Memory := List Host.Cell

/-- The profiler's hit table (43_trace_engine.md R169): counts by pc, strictly rising, no entry 0; an unlisted pc has 0. -/
abbrev HitTable := List (Nat × Nat)

/-- A finalized trace (43_trace_engine.md R173): a non-empty list of instructions, given as its first and the others. -/
structure Trace where
  head : Instruction
  tail : List Instruction
deriving DecidableEq, Repr

/-- The trace cache (43_trace_engine.md R174): finalized traces by anchor pc, strictly rising. -/
abbrev TraceCache := List (Nat × Trace)

/-- A recording session (43_trace_engine.md R175): the instructions recorded so far; its anchor is the pc of the first. -/
structure Recorder where
  instrs : List Instruction
deriving DecidableEq, Repr

/-- The VM's mode (44_tracing_vm.md R190). -/
inductive VmMode where
  | idle
  | recording (recorder : Recorder)
deriving DecidableEq, Repr

/-- A decoder table's contents: exactly 1024 control words, so that a table that is too small cannot be written down
(10_state.md R25, 60_exceptions.md R364). -/
abbrev DecoderTable := Vector ControlWord 1024

/-- The decoder table `ROM` (10_state.md R25): the reference microcode, under the reference layout, or a loaded image, with
the layout of the generator that made it (30_encoding.md R62, R65). -/
inductive Microcode where
  | reference
  | image (layout : Layout) (table : DecoderTable)
deriving DecidableEq, Repr

/-- The parameters given at construction (00_scope.md R9, 44_tracing_vm.md R191). No step changes one. -/
structure Params where
  /-- `REV`. -/
  rev : Rev
  /-- `STRATEGY`. -/
  strategy : Strategy
  /-- `TRACE_EXEC_ENABLED`. -/
  traceExecEnabled : Bool
  /-- `MAX_TRACE_STEPS`. -/
  maxTraceSteps : Nat
  /-- `LOGIC_CARRY`. -/
  logicCarry : LogicCarry
  /-- Whether post-step snapshots are captured (44_tracing_vm.md R203: optional). -/
  capture : Bool
  /-- `ROM` and `CW_LAYOUT`. -/
  microcode : Microcode
  /-- `PROG`'s upper bytes, the opcodes (30_encoding.md R66). -/
  progUpper : Memory
  /-- `PROG`'s lower bytes, the immediates (30_encoding.md R66). -/
  progLower : Memory
  /-- `PERIPH`: the occupied slots; every other value of D is an unoccupied slot (20_memory.md R39; DESIGN CHOICE,
  assumption 19). -/
  occupied : List Byte
deriving DecidableEq, Repr

/-- What a step does at its ports, in the order it does it (41_pipeline_step.md R117, 20_memory.md R42, R43, R49). -/
inductive Event where
  | fetch (address : Addr)
  | memRead (address : Addr) (value : Byte)
  | periphLoad (slot : Byte) (address : Addr) (value : Byte)
  | willJump (target : Addr)
  | memWrite (address : Addr) (value : Byte)
  | periphStore (slot : Byte) (address : Addr) (value : Byte)
deriving DecidableEq, Repr

/-- An error that a VM step returns to its caller (60_exceptions.md R360). It ends nothing: the state stays valid. -/
inductive HostError where
  /-- The executor reached `MAX_TRACE_STEPS` (60_exceptions.md R362). -/
  | traceStepCeiling
deriving DecidableEq, Repr

/-- The whole machine: the TracingInterpretingVM (44_tracing_vm.md R190). -/
structure State where
  /-- The core (R190 `s`). -/
  cpu : ProcessorState
  /-- Data RAM (20_memory.md R36). -/
  ram : Memory
  /-- The VM mode, with the recorder while recording. -/
  mode : VmMode
  /-- The trace cache. -/
  cache : TraceCache
  /-- The profiler's hit table. -/
  hits : HitTable
  /-- The pc the profiler found newly hot in the last ordinary step (R190). -/
  hotCandidate : Option Addr
  /-- Set after a bail in which the executor performed no step (R190, R198). -/
  skipExec : Bool
  /-- The captured snapshots, oldest first (R203; bookkeeping DEDUCED, assumption 9). -/
  log : List ProcessorState
  /-- The parameters. -/
  params : Params
  /-- The events of every step so far, oldest first (41_pipeline_step.md R115, R117; DESIGN CHOICE, assumption 8). -/
  events : List Event
  /-- The error the last VM step returned, if it returned one (60_exceptions.md R360; DESIGN CHOICE, assumption 10). -/
  lastError : Option HostError
  /-- The MODEL's own: how many peripheral answers have been drawn (assumption 4). -/
  periphDraws : Nat
  /-- The MODEL's own: how many polls of the cancellation flag have been drawn (assumption 5). -/
  cancelDraws : Nat
deriving DecidableEq, Repr

/-- Why the machine stops with a fault. No step raises one: the hardware has no faults (60_exceptions.md R354). -/
inductive Fault where
  /-- Raised by construction from decoder-ROM banks of unequal length or with fewer than 1024 entries (60_exceptions.md R364,
  93_implementation_defined.md I2): no VM is constructed. Safe. -/
  | constructionError
deriving DecidableEq, Repr

/-- Why something is refused. No step of the machine raises one. -/
inductive Refusal where
  /-- Reserved for an instruction whose meaning is not written: no arm of `exec` answers it. Safe. -/
  | notModelled (mnemonic : String)
  /-- Raised by the loading of a decoder-ROM or program image that is not valid; nothing changes (60_exceptions.md R363). Safe. -/
  | loadRefused
deriving DecidableEq, Repr

/-- What a step answers. -/
abbrev StepOutcome := Host.Outcome State Fault Refusal

/-- The no-op word the fetch delegate gives where no program word is loaded, at address 0 (20_memory.md R33): the `if_id` of
reset (10_state.md R31). -/
def Instruction.reset : Instruction :=
  { opcode := 0x00, immediate := 0x00, pc := 0x0000, disassembly := none, guard := [], isBreakpoint := false }

/-- The processor state after reset (10_state.md R31, 70_reset_and_hazards.md R374). -/
def ProcessorState.reset : ProcessorState :=
  { a := 0x00, b := 0x00, c := 0x00, d := 0x00, g := 0x00, h := 0x00, x := 0x00, y := 0x00, u := 0x00, v := 0x00
    aluResult := 0x00, aluFlags := ⟨false, false⟩, flags := ⟨false, false⟩
    pc := 0x0000, pcIf := 0x0000, ifId := Instruction.reset, cw := 0xFFFFFFFF, uptime := 0 }

/-- The parameters of the reset state: the defaults 00_scope.md R9 gives, and, where it leaves a parameter open, the values
of assumptions 2 and 3 (DESIGN CHOICE; the conventions of 95_test_vectors.md where it has one). -/
def Params.reset : Params :=
  { rev := .b, strategy := .interpreterOnly, traceExecEnabled := true, maxTraceSteps := 65536
    logicCarry := .asArithmetic, capture := false, microcode := .reference
    progUpper := [], progLower := [], occupied := [] }

/-- A VM in its construction state (44_tracing_vm.md R190, R207), around given parameters and RAM contents `RAM0`. -/
def State.construct (params : Params) (ram0 : Memory) : State :=
  { cpu := ProcessorState.reset, ram := ram0, mode := .idle, cache := [], hits := [], hotCandidate := none
    skipExec := false, log := [], params := params, events := [], lastError := none, periphDraws := 0, cancelDraws := 0 }

/-- The machine right after reset (70_reset_and_hazards.md R374), with no program loaded and `RAM0` all 0x00
(assumptions 1, 2, 3). -/
def State.reset : State := State.construct Params.reset []

end Sys2Proof.Machine
end

