-- ==== Sys2Proof/Machine/Flags.lean ====
section
/-! DEFINITION. The ALU (spec/40_alu.md): two 4-bit slices composed into 8 bits, and how its two flags are formed.
The function table is the one the spec supplies from general knowledge (PRESUMED, assumption 7). -/

namespace Sys2Proof.Machine

/-- What one 4-bit slice answers: its output, its carry-out (active low: `false` is a carry) and its equality output. -/
structure SliceOut where
  f : BitVec 4
  carry : Bool
  equal : Bool
deriving DecidableEq, Repr

/-- The first term of a slice (R75): `a | (S0 ? b : 0) | (S1 ? ~b : 0)`. -/
def sliceT1 (a b selector : BitVec 4) : BitVec 4 :=
  a ||| (if selector.getLsbD 0 then b else 0) ||| (if selector.getLsbD 1 then ~~~b else 0)

/-- The second term of a slice (R75): `(S2 ? (a & ~b) : 0) | (S3 ? (a & b) : 0)`. -/
def sliceT2 (a b selector : BitVec 4) : BitVec 4 :=
  (if selector.getLsbD 2 then a &&& ~~~b else 0) ||| (if selector.getLsbD 3 then a &&& b else 0)

/-- One slice (R75 to R79). `logic` is the mode bit M, `carryIn` the active-low carry input. It follows the terms T1 and T2 at all
operands, so that arithmetic S = 5 gives 2A plus k where B = 0x00, and arithmetic S = 10 gives 2A plus k where B = 0xFF: there
R104 and R109 state these terms and also, as a corner case, A plus k (DESIGN CHOICE, assumption 24: the terms are taken). -/
def slice (a b selector : BitVec 4) (logic carryIn : Bool) : SliceOut :=
  let t1 := sliceT1 a b selector
  let t2 := sliceT2 a b selector
  let sum := t1.toNat + t2.toNat + (if carryIn then 0 else 1)
  let f := if logic then ~~~t1 ^^^ t2 else BitVec.ofNat 4 sum
  { f := f, carry := decide (sum < 16), equal := decide (f = 0xF) }

/-- What the ALU answers (R71). -/
structure AluOut where
  result : Byte
  flags : Flags
deriving DecidableEq, Repr

/-- `update(a, b, selector, mode, carryIn)` (R71, R74): the upper slice takes the lower slice's carry-out; the carry flag is
the upper slice's carry-out and the equal flag the AND of the two equality outputs. In logic mode the carry flag follows
`LOGIC_CARRY` (R78). -/
def aluUpdate (logicCarry : LogicCarry) (a b : Byte) (selector : BitVec 4) (logic carryIn : Bool) : AluOut :=
  let lo := slice (a.extractLsb' 0 4) (b.extractLsb' 0 4) selector logic carryIn
  let hi := slice (a.extractLsb' 4 4) (b.extractLsb' 4 4) selector logic lo.carry
  let carry :=
    match logicCarry with
    | .asArithmetic => hi.carry
    | .free => if logic then Config.freeLogicCarry a b selector carryIn else hi.carry
  { result := hi.f ++ lo.f, flags := { carry := carry, equal := lo.equal && hi.equal } }

/-- The ALU as a step evaluates it (R72): the selector is C[3:0] and the mode C[4], 1 for logic; C[7:5] do not reach it. -/
def aluOf (logicCarry : LogicCarry) (a b c : Byte) (carryIn : Bool) : AluOut :=
  aluUpdate logicCarry a b (c.extractLsb' 0 4) (c.getLsbD 4) carryIn

end Sys2Proof.Machine
end

