-- ==== Sys2Proof/Machine/Memory.lean ====
section
/-! DEFINITION. Lists of (key, value) pairs in canonical form, and the three uses of them: bytes by address (RAM and the
two byte planes of instruction memory, spec/20_memory.md), hit counts by pc, traces by anchor pc (43_trace_engine.md). -/

namespace Sys2Proof.Machine

section
variable {α : Type}

/-- The value listed under a key. -/
def lookup (key : Nat) : List (Nat × α) → Option α
  | [] => none
  | (k, v) :: rest => if k = key then some v else lookup key rest

/-- The list without its entries under a key. -/
def eraseKey (key : Nat) (l : List (Nat × α)) : List (Nat × α) := l.filter fun e => e.1 ≠ key

/-- An entry put before the first entry with a greater key. -/
def insertKey (key : Nat) (value : α) : List (Nat × α) → List (Nat × α)
  | [] => [(key, value)]
  | (k, v) :: rest => if key < k then (key, value) :: (k, v) :: rest else (k, v) :: insertKey key value rest

/-- The list with a key's entry replaced. -/
def setKey (key : Nat) (value : α) (l : List (Nat × α)) : List (Nat × α) := insertKey key value (eraseKey key l)

/-- The list with a key's value set, where `default` is what an unlisted key reads as: setting the default unlists it. -/
def putKey [DecidableEq α] (default : α) (key : Nat) (value : α) (l : List (Nat × α)) : List (Nat × α) :=
  if value = default then eraseKey key l else setKey key value l

/-- Whether the keys are strictly rising, from a lower bound on. -/
def risingFrom : Nat → List (Nat × α) → Bool
  | _, [] => true
  | low, (k, _) :: rest => decide (low ≤ k) && risingFrom (k + 1) rest

end

/-- What an address of RAM or of instruction memory reads as when nothing is listed for it: 0x00 (DESIGN CHOICE, assumption 1, for RAM; for
instruction memory the no-op word of 20_memory.md R33). -/
def unlistedByte : Byte := 0x00

/-- Read one byte. -/
def readByte (m : Memory) (a : Addr) : Byte := (lookup a.toNat m).getD unlistedByte

/-- Write one byte. -/
def writeByte (m : Memory) (a : Addr) (value : Byte) : Memory := putKey unlistedByte a.toNat value m

/-- The canonical form of a memory: addresses strictly rising and below 65536, no entry equal to what an unlisted address
reads as. -/
def Memory.wf (m : Memory) : Bool :=
  risingFrom 0 m && m.all fun e => decide (e.1 < 65536) && decide (e.2 ≠ unlistedByte)

/-- The count of a pc in the profiler's hit table (43_trace_engine.md R169). -/
def hitCount (t : HitTable) (p : Addr) : Nat := (lookup p.toNat t).getD 0

/-- The hit table with a pc's count set. -/
def setHitCount (t : HitTable) (p : Addr) (n : Nat) : HitTable := putKey 0 p.toNat n t

/-- The canonical form of a hit table. -/
def HitTable.wf (t : HitTable) : Bool :=
  risingFrom 0 t && t.all fun e => decide (e.1 < 65536) && decide (e.2 ≠ 0)

/-- The anchor of a trace: the pc of its first recorded instruction (43_trace_engine.md R173). -/
def Trace.anchor (t : Trace) : Addr := t.head.pc

/-- The instructions of a trace. -/
def Trace.instrs (t : Trace) : List Instruction := t.head :: t.tail

/-- The trace cached at an anchor (43_trace_engine.md R174). -/
def cachedTrace (c : TraceCache) (p : Addr) : Option Trace := lookup p.toNat c

/-- `cache.insert(t)` (43_trace_engine.md R174). -/
def cacheInsert (c : TraceCache) (t : Trace) : TraceCache := setKey t.anchor.toNat t c

/-- A memory from the bytes of an image, one byte an address from 0 up (30_encoding.md R66), starting at an address. -/
def memoryFrom : Nat → List Byte → Memory
  | _, [] => []
  | a, v :: rest => if v = unlistedByte then memoryFrom (a + 1) rest else (a, v) :: memoryFrom (a + 1) rest

end Sys2Proof.Machine
end

