-- ==== Sys2Proof/Machine/Operands.lean ====
section
/-! DEFINITION. The operand forms: the register pairs, the control word's signals, the sources that drive the bus and the
registers that latch it (spec/10_state.md R17, R19; 30_encoding.md R58 to R64; 41_pipeline_step.md section 4). -/

namespace Sys2Proof.Machine

/-- The pair of a high and a low byte, high byte first (10_state.md R19, 20_memory.md R44). -/
def pairOf (high low : Byte) : Addr := high ++ low

/-- The high byte of a 16-bit value. -/
def highByte (v : Addr) : Byte := v.extractLsb' 8 8

/-- The low byte of a 16-bit value. -/
def lowByte (v : Addr) : Byte := v.extractLsb' 0 8

/-- X:Y, the jump target. -/
def ProcessorState.xy (p : ProcessorState) : Addr := pairOf p.x p.y

/-- U:V, the RAM and peripheral address. -/
def ProcessorState.uv (p : ProcessorState) : Addr := pairOf p.u p.v

/-- G:H, the link value. -/
def ProcessorState.gh (p : ProcessorState) : Addr := pairOf p.g p.h

/-- `pairinc` (41_pipeline_step.md R124), on the two bytes. -/
def pairInc (high low : Byte) : Byte × Byte :=
  let low' := low + 1
  (if low' = 0 then high + 1 else high, low')

/-- A signal is asserted when its bit of the raw control word is 0 (30_encoding.md R58, R59). -/
def asserted (layout : Layout) (cw : ControlWord) (sig : Signal) : Bool :=
  !cw.getLsbD (layout.bit sig).val

/-- The raw word that asserts the signals of a list and no others (30_encoding.md R64): all ones, with the bit of each
signal cleared. -/
def controlWordIn (layout : Layout) (sigs : List Signal) : ControlWord :=
  sigs.foldl (fun w sig => w &&& ~~~(1#32 <<< (layout.bit sig).val)) 0xFFFFFFFF

/-- The same under the reference layout. -/
def controlWord (sigs : List Signal) : ControlWord := controlWordIn Layout.reference sigs

/-- The fixed priority order of the bus outputs, first to last (41_pipeline_step.md R122). -/
def outputOrder : List BusOutput := [.go, .ho, .ao, .bo, .co, .eo, .xo, .yo, .uo, .vo, .mo, .po]

/-- The winning output: the last asserted one of the order (R122). -/
def winner (layout : Layout) (cw : ControlWord) : Option BusOutput :=
  outputOrder.reverse.find? fun o => asserted layout cw o.signal

/-- The selected slot is occupied (20_memory.md R39). -/
def slotOccupied (p : Params) (slot : Byte) : Bool := p.occupied.contains slot

/-- What a peripheral load from a slot answers (20_memory.md R40): an oracle's answer from an occupied slot, 0x00 from an
unoccupied one. -/
def peripheralAnswer (s : State) (slot : Byte) : Byte :=
  if slotOccupied s.params slot then Config.peripheralAnswer s.periphDraws else 0x00

/-- `value(w)` of each bus output (41_pipeline_step.md R129 to R140), in the state after phase 1 step (d). -/
def outputValue (s : State) : BusOutput → Byte
  | .go => s.cpu.g
  | .ho => s.cpu.h
  | .ao => s.cpu.a
  | .bo => s.cpu.b
  | .co => s.cpu.c
  | .eo => s.cpu.aluResult
  | .xo => s.cpu.x
  | .yo => s.cpu.y
  | .uo => s.cpu.u
  | .vo => s.cpu.v
  | .mo => readByte s.ram s.cpu.uv
  | .po => peripheralAnswer s s.cpu.d

/-- The bus (R122): 0x00, or the value of the winning output. -/
def busValue (layout : Layout) (cw : ControlWord) (s : State) : Byte :=
  match winner layout cw with
  | none => 0x00
  | some o => outputValue s o

end Sys2Proof.Machine
end

