-- ==== Sys2Proof/Machine/Ops.lean ====
section
/-! DEFINITION. The named operations a step is made of (spec/41_pipeline_step.md R115), in its phases' order, and the
shared operations the instructions' meanings are written over. The hardware has no exceptions, no traps and no return from
one (60_exceptions.md R354, R357, R358): there is no operation here that takes one. -/

namespace Sys2Proof.Machine

/-- Carry on from a step's next state; a fault or a refusal stays. -/
def andThen {σ τ φ ρ : Type} (o : Host.Outcome σ φ ρ) (f : σ → Host.Outcome τ φ ρ) : Host.Outcome τ φ ρ :=
  match o with
  | .next s => f s
  | .fault r => .fault r
  | .refused r => .refused r

/-- `Fetch(a)` (20_memory.md R33): the program word at an address, without annotations. -/
def fetch (p : Params) (a : Addr) : Instruction :=
  { opcode := readByte p.progUpper a, immediate := readByte p.progLower a, pc := a
    disassembly := none, guard := [], isBreakpoint := false }

/-- Record an event. -/
def emit (e : Event) (s : State) : State := { s with events := s.events ++ [e] }

/-- Do an action where a signal is asserted. -/
def onSignal (layout : Layout) (cw : ControlWord) (sig : Signal) (action : State → State) (s : State) : State :=
  if asserted layout cw sig then action s else s

/-! ### Phase 1, the control clock -/

/-- Step (a): `C <- if_id.immediate`, then the control word is held (R118). -/
def latchControl (cw : ControlWord) (imm : Byte) (s : State) : State :=
  { s with cpu := { s.cpu with c := imm, cw := cw } }

/-- Step (b): `if_id <- Fetch(pc_if)` (R119). -/
def fetchNext (s : State) : State :=
  emit (.fetch s.cpu.pcIf) { s with cpu := { s.cpu with ifId := fetch s.params s.cpu.pcIf } }

/-- Step (c): `pc_if <- pc` (R120). -/
def snapshotPc (s : State) : State := { s with cpu := { s.cpu with pcIf := s.cpu.pc } }

/-- Step (d): the ALU is evaluated on A, B and C, in every non-halted step (R121, 40_alu.md R72). -/
def evaluateAlu (carryIn : Bool) (s : State) : State :=
  let r := aluOf s.params.logicCarry s.cpu.a s.cpu.b s.cpu.c carryIn
  { s with cpu := { s.cpu with aluResult := r.result, aluFlags := r.flags } }

/-- Step (e): what driving the bus does beside giving its value: the winning `MO` reads RAM, the winning `PO` makes one
peripheral load (R122, R139, R140; 20_memory.md R42). A losing output does nothing. -/
def driveBus (layout : Layout) (cw : ControlWord) (s : State) : State :=
  match winner layout cw with
  | some .mo => emit (.memRead s.cpu.uv (readByte s.ram s.cpu.uv)) s
  | some .po =>
    let s' := emit (.periphLoad s.cpu.d s.cpu.uv (peripheralAnswer s s.cpu.d)) s
    if slotOccupied s.params s.cpu.d then { s' with periphDraws := s.periphDraws + 1 } else s'
  | _ => s

/-- Step (f) with `J`: `pc <- X:Y`, and the will-jump notification (R123, 42_control_flow.md R155, R158). -/
def jumpToXY (s : State) : State :=
  emit (.willJump s.cpu.xy) { s with cpu := { s.cpu with pc := s.cpu.xy } }

/-- Step (f) without `J`: `pc <- pc + 1 (mod 65536)`. -/
def nextPc (s : State) : State := { s with cpu := { s.cpu with pc := s.cpu.pc + 1 } }

/-- Step (f) (R123). -/
def advancePc (layout : Layout) (cw : ControlWord) (s : State) : State :=
  if asserted layout cw .j then jumpToXY s else nextPc s

/-- `X:Y <- pairinc(X:Y)` (R152). -/
def incXY (s : State) : State :=
  { s with cpu := { s.cpu with x := (pairInc s.cpu.x s.cpu.y).1, y := (pairInc s.cpu.x s.cpu.y).2 } }

/-- `U:V <- pairinc(U:V)` (R153). -/
def incUV (s : State) : State :=
  { s with cpu := { s.cpu with u := (pairInc s.cpu.u s.cpu.v).1, v := (pairInc s.cpu.u s.cpu.v).2 } }

/-- Steps (a) to (d): everything before the bus is driven. -/
def beforeBus (layout : Layout) (cw : ControlWord) (imm : Byte) (s : State) : State :=
  evaluateAlu (!asserted layout cw .carryIn) (snapshotPc (fetchNext (latchControl cw imm s)))

/-- Steps (e) to (g), from the state after step (d). -/
def afterBus (layout : Layout) (cw : ControlWord) (s : State) : State :=
  onSignal layout cw .uvInc incUV (onSignal layout cw .xyInc incXY (advancePc layout cw (driveBus layout cw s)))

/-! ### Phase 2, the register clock -/

/-- The latches of the seven registers that take the bus (R141 to R147). -/
def latchRegisters (layout : Layout) (cw : ControlWord) (bus : Byte) (s : State) : State :=
  s |> onSignal layout cw .ai (fun s => { s with cpu := { s.cpu with a := bus } })
    |> onSignal layout cw .bi (fun s => { s with cpu := { s.cpu with b := bus } })
    |> onSignal layout cw .di (fun s => { s with cpu := { s.cpu with d := bus } })
    |> onSignal layout cw .xi (fun s => { s with cpu := { s.cpu with x := bus } })
    |> onSignal layout cw .yi (fun s => { s with cpu := { s.cpu with y := bus } })
    |> onSignal layout cw .ui (fun s => { s with cpu := { s.cpu with u := bus } })
    |> onSignal layout cw .vi (fun s => { s with cpu := { s.cpu with v := bus } })

/-- `MemWrite(a, 1, v)` (20_memory.md R38, R148). -/
def memWrite (a : Addr) (value : Byte) (s : State) : State :=
  emit (.memWrite a value) { s with ram := writeByte s.ram a value }

/-- `PeriphStore(d, a, v)` (20_memory.md R41, R149): one event; what the device does with it is outside the core, and an
unoccupied slot ignores it. -/
def periphStore (slot : Byte) (a : Addr) (value : Byte) (s : State) : State := emit (.periphStore slot a value) s

/-- `LinkIn` (42_control_flow.md R164): G:H takes pc (Revision A) or pc_if (Revision B), as they stand after phase 1. -/
def latchLink (s : State) : State :=
  let v := match s.params.rev with
    | .a => s.cpu.pc
    | .b => s.cpu.pcIf
  { s with cpu := { s.cpu with g := highByte v, h := lowByte v } }

/-- `FI` (R150): the ALU flags of this step are latched. -/
def latchFlags (s : State) : State := { s with cpu := { s.cpu with flags := s.cpu.aluFlags } }

/-- Phase 2 (R125, R127), from the state after phase 1: `MI` and `PI` use U:V, and `PI` the slot D, as they stand here. -/
def registerClock (layout : Layout) (cw : ControlWord) (bus : Byte) (s : State) : State :=
  latchRegisters layout cw bus s
    |> onSignal layout cw .mi (memWrite s.cpu.uv bus)
    |> onSignal layout cw .pi (periphStore s.cpu.d s.cpu.uv bus)
    |> onSignal layout cw .linkIn latchLink
    |> onSignal layout cw .fi latchFlags

/-- `uptime <- uptime + 1` (R128). -/
def tick (s : State) : State := { s with cpu := { s.cpu with uptime := s.cpu.uptime + 1 } }

/-! ### The whole step -/

/-- The non-halted step (R115), for any control word under any layout. -/
def clock (layout : Layout) (cw : ControlWord) (imm : Byte) (s : State) : State :=
  let s1 := beforeBus layout cw imm s
  tick (registerClock layout cw (busValue layout cw s1) (afterBus layout cw s1))

/-- The core is halted: the held control word asserts `HLT` (42_control_flow.md R163). -/
def halted (layout : Layout) (p : ProcessorState) : Bool := asserted layout p.cw .hlt

/-- The inert step of a halted core (42_control_flow.md R162): only uptime changes. -/
def inert (s : State) : State := tick s

/-! ### What the instructions' meanings are written over -/

/-- The step that retires an instruction whose control word asserts exactly the given signals, under the reference layout
(00_scope.md R12, 41_pipeline_step.md R154). -/
def retire (sigs : List Signal) (imm : Byte) (s : State) : StepOutcome :=
  .next (clock Layout.reference (controlWord sigs) imm s)

/-- `MOV d, s` (46_reference_moves.md): the output of the source and the input of the destination. -/
def move (source : BusOutput) (destination : BusInput) (imm : Byte) (s : State) : StepOutcome :=
  retire [source.signal, destination.signal] imm s

/-- `ALU d, imm` (45_reference_microcode.md section 3): the ALU result to the destination, carry input 1, flags latched. -/
def aluTo (destination : BusInput) (imm : Byte) (s : State) : StepOutcome :=
  retire [destination.signal, .eo, .fi] imm s

/-- `ALUC d, imm`: the same with carry input 0. -/
def alucTo (destination : BusInput) (imm : Byte) (s : State) : StepOutcome :=
  retire [.carryIn, destination.signal, .eo, .fi] imm s

end Sys2Proof.Machine
end

