-- ==== Sys2Proof/Machine/Alu.lean ====
section
/-! DEFINITION. The ALU instructions (45_reference_microcode.md R214 to R233): `ALU d` and `ALUC d` for the nine destinations, `CMP` and
`CMPC`. Carry input 1, or 0 where `CarryIn` is asserted; the flags are latched. -/

namespace Sys2Proof.Machine

/-- `ALU A, imm` (R214): A ← ALU(A, B, imm, carryIn = 1), flags latched. Control word {AI, EO, FI}. -/
def execAluA (imm : Byte) (s : State) : StepOutcome := aluTo .ai imm s

/-- `ALU B, imm` (R216): B ← ALU(A, B, imm, carryIn = 1), flags latched. Control word {BI, EO, FI}. -/
def execAluB (imm : Byte) (s : State) : StepOutcome := aluTo .bi imm s

/-- `ALU D, imm` (R218): D ← ALU(A, B, imm, carryIn = 1), flags latched. Control word {DI, EO, FI}. -/
def execAluD (imm : Byte) (s : State) : StepOutcome := aluTo .di imm s

/-- `ALU X, imm` (R220): X ← ALU(A, B, imm, carryIn = 1), flags latched. Control word {XI, EO, FI}. -/
def execAluX (imm : Byte) (s : State) : StepOutcome := aluTo .xi imm s

/-- `ALU Y, imm` (R222): Y ← ALU(A, B, imm, carryIn = 1), flags latched. Control word {YI, EO, FI}. -/
def execAluY (imm : Byte) (s : State) : StepOutcome := aluTo .yi imm s

/-- `ALU U, imm` (R224): U ← ALU(A, B, imm, carryIn = 1), flags latched. Control word {UI, EO, FI}. -/
def execAluU (imm : Byte) (s : State) : StepOutcome := aluTo .ui imm s

/-- `ALU V, imm` (R226): V ← ALU(A, B, imm, carryIn = 1), flags latched. Control word {VI, EO, FI}. -/
def execAluV (imm : Byte) (s : State) : StepOutcome := aluTo .vi imm s

/-- `ALU M, imm` (R228): RAM[U:V] ← ALU(A, B, imm, carryIn = 1), flags latched. Control word {MI, EO, FI}. -/
def execAluM (imm : Byte) (s : State) : StepOutcome := aluTo .mi imm s

/-- `ALU P, imm` (R230): peripheral slot D at U:V ← ALU(A, B, imm, carryIn = 1), flags latched. Control word {PI, EO, FI}. -/
def execAluP (imm : Byte) (s : State) : StepOutcome := aluTo .pi imm s

/-- `ALUC A, imm` (R215): A ← ALU(A, B, imm, carryIn = 0), flags latched. Control word {CarryIn, AI, EO, FI}. -/
def execAlucA (imm : Byte) (s : State) : StepOutcome := alucTo .ai imm s

/-- `ALUC B, imm` (R217): B ← ALU(A, B, imm, carryIn = 0), flags latched. Control word {CarryIn, BI, EO, FI}. -/
def execAlucB (imm : Byte) (s : State) : StepOutcome := alucTo .bi imm s

/-- `ALUC D, imm` (R219): D ← ALU(A, B, imm, carryIn = 0), flags latched. Control word {CarryIn, DI, EO, FI}. -/
def execAlucD (imm : Byte) (s : State) : StepOutcome := alucTo .di imm s

/-- `ALUC X, imm` (R221): X ← ALU(A, B, imm, carryIn = 0), flags latched. Control word {CarryIn, XI, EO, FI}. -/
def execAlucX (imm : Byte) (s : State) : StepOutcome := alucTo .xi imm s

/-- `ALUC Y, imm` (R223): Y ← ALU(A, B, imm, carryIn = 0), flags latched. Control word {CarryIn, YI, EO, FI}. -/
def execAlucY (imm : Byte) (s : State) : StepOutcome := alucTo .yi imm s

/-- `ALUC U, imm` (R225): U ← ALU(A, B, imm, carryIn = 0), flags latched. Control word {CarryIn, UI, EO, FI}. -/
def execAlucU (imm : Byte) (s : State) : StepOutcome := alucTo .ui imm s

/-- `ALUC V, imm` (R227): V ← ALU(A, B, imm, carryIn = 0), flags latched. Control word {CarryIn, VI, EO, FI}. -/
def execAlucV (imm : Byte) (s : State) : StepOutcome := alucTo .vi imm s

/-- `ALUC M, imm` (R229): RAM[U:V] ← ALU(A, B, imm, carryIn = 0), flags latched. Control word {CarryIn, MI, EO, FI}. -/
def execAlucM (imm : Byte) (s : State) : StepOutcome := alucTo .mi imm s

/-- `ALUC P, imm` (R231): peripheral slot D at U:V ← ALU(A, B, imm, carryIn = 0), flags latched. Control word {CarryIn, PI, EO, FI}. -/
def execAlucP (imm : Byte) (s : State) : StepOutcome := alucTo .pi imm s

/-- `CMP imm` (R232): latch the flags of ALU(A, B, imm, carryIn = 1). Control word {FI}. -/
def execCmp (imm : Byte) (s : State) : StepOutcome := retire [.fi] imm s

/-- `CMPC imm` (R233): as `CMP` with carry input 0. Control word {CarryIn, FI}. -/
def execCmpc (imm : Byte) (s : State) : StepOutcome := retire [.carryIn, .fi] imm s

end Sys2Proof.Machine
end

