-- ==== Sys2Proof/Machine/Jumps.lean ====
section
/-! DEFINITION. The jumps and the link instruction (45_reference_microcode.md R234 to R240). A jump goes to X:Y and has two delay slots
(42_control_flow.md R155, R159); a conditional jump reads the latched flags as they stand at the start of the step (R157). -/

namespace Sys2Proof.Machine

/-- The control word of a conditional jump: `J` where the condition holds, nothing otherwise (42_control_flow.md R157). -/
def jumpIf (condition : Bool) (imm : Byte) (s : State) : StepOutcome :=
  retire (if condition then [.j] else []) imm s

/-- `JMP` (R234): pc ← X:Y. Control word {J}. -/
def execJmp (imm : Byte) (s : State) : StepOutcome := retire [.j] imm s

/-- `JC` (R235): jump if carryFlag = 1. -/
def execJc (imm : Byte) (s : State) : StepOutcome := jumpIf s.cpu.flags.carry imm s

/-- `JNC` (R236): jump if carryFlag = 0. -/
def execJnc (imm : Byte) (s : State) : StepOutcome := jumpIf (!s.cpu.flags.carry) imm s

/-- `JE` (R237): jump if equalFlag = 1. -/
def execJe (imm : Byte) (s : State) : StepOutcome := jumpIf s.cpu.flags.equal imm s

/-- `JNE` (R238): jump if equalFlag = 0. -/
def execJne (imm : Byte) (s : State) : StepOutcome := jumpIf (!s.cpu.flags.equal) imm s

/-- `LINK` (R239): G:H ← the link value. Control word {LinkIn}. -/
def execLink (imm : Byte) (s : State) : StepOutcome := retire [.linkIn] imm s

/-- `JALR` (R240): pc ← X:Y and G:H ← the link value. Control word {J, LinkIn}. -/
def execJalr (imm : Byte) (s : State) : StepOutcome := retire [.j, .linkIn] imm s

end Sys2Proof.Machine
end

