-- ==== Sys2Proof/Machine/Moves.lean ====
section
/-! DEFINITION. The register moves `MOV d, s` (46_reference_moves.md): 108 instructions, one over the shared operation `move`. Each
asserts the output signal of its source and the input signal of its destination (R211). -/

namespace Sys2Proof.Machine

/-- `MOV A, A` (R246): A ← A. Control word {AO, AI}. -/
def execMovAA (imm : Byte) (s : State) : StepOutcome := move .ao .ai imm s

/-- `MOV A, B` (R247): A ← B. Control word {BO, AI}. -/
def execMovAB (imm : Byte) (s : State) : StepOutcome := move .bo .ai imm s

/-- `MOV A, C` (R248): A ← the immediate. Control word {CO, AI}. -/
def execMovAC (imm : Byte) (s : State) : StepOutcome := move .co .ai imm s

/-- `MOV A, X` (R249): A ← X. Control word {XO, AI}. -/
def execMovAX (imm : Byte) (s : State) : StepOutcome := move .xo .ai imm s

/-- `MOV A, Y` (R250): A ← Y. Control word {YO, AI}. -/
def execMovAY (imm : Byte) (s : State) : StepOutcome := move .yo .ai imm s

/-- `MOV A, U` (R251): A ← U. Control word {UO, AI}. -/
def execMovAU (imm : Byte) (s : State) : StepOutcome := move .uo .ai imm s

/-- `MOV A, V` (R252): A ← V. Control word {VO, AI}. -/
def execMovAV (imm : Byte) (s : State) : StepOutcome := move .vo .ai imm s

/-- `MOV A, M` (R253): A ← RAM[U:V]. Control word {MO, AI}. -/
def execMovAM (imm : Byte) (s : State) : StepOutcome := move .mo .ai imm s

/-- `MOV A, P` (R254): A ← peripheral slot D at U:V. Control word {PO, AI}. -/
def execMovAP (imm : Byte) (s : State) : StepOutcome := move .po .ai imm s

/-- `MOV A, G` (R255): A ← G (link-hi). Control word {GO, AI}. -/
def execMovAG (imm : Byte) (s : State) : StepOutcome := move .go .ai imm s

/-- `MOV A, H` (R256): A ← H (link-lo). Control word {HO, AI}. -/
def execMovAH (imm : Byte) (s : State) : StepOutcome := move .ho .ai imm s

/-- `MOV A, E` (R257): A ← the ALU result of this step. Control word {EO, AI}. -/
def execMovAE (imm : Byte) (s : State) : StepOutcome := move .eo .ai imm s

/-- `MOV B, A` (R258): B ← A. Control word {AO, BI}. -/
def execMovBA (imm : Byte) (s : State) : StepOutcome := move .ao .bi imm s

/-- `MOV B, B` (R259): B ← B. Control word {BO, BI}. -/
def execMovBB (imm : Byte) (s : State) : StepOutcome := move .bo .bi imm s

/-- `MOV B, C` (R260): B ← the immediate. Control word {CO, BI}. -/
def execMovBC (imm : Byte) (s : State) : StepOutcome := move .co .bi imm s

/-- `MOV B, X` (R261): B ← X. Control word {XO, BI}. -/
def execMovBX (imm : Byte) (s : State) : StepOutcome := move .xo .bi imm s

/-- `MOV B, Y` (R262): B ← Y. Control word {YO, BI}. -/
def execMovBY (imm : Byte) (s : State) : StepOutcome := move .yo .bi imm s

/-- `MOV B, U` (R263): B ← U. Control word {UO, BI}. -/
def execMovBU (imm : Byte) (s : State) : StepOutcome := move .uo .bi imm s

/-- `MOV B, V` (R264): B ← V. Control word {VO, BI}. -/
def execMovBV (imm : Byte) (s : State) : StepOutcome := move .vo .bi imm s

/-- `MOV B, M` (R265): B ← RAM[U:V]. Control word {MO, BI}. -/
def execMovBM (imm : Byte) (s : State) : StepOutcome := move .mo .bi imm s

/-- `MOV B, P` (R266): B ← peripheral slot D at U:V. Control word {PO, BI}. -/
def execMovBP (imm : Byte) (s : State) : StepOutcome := move .po .bi imm s

/-- `MOV B, G` (R267): B ← G (link-hi). Control word {GO, BI}. -/
def execMovBG (imm : Byte) (s : State) : StepOutcome := move .go .bi imm s

/-- `MOV B, H` (R268): B ← H (link-lo). Control word {HO, BI}. -/
def execMovBH (imm : Byte) (s : State) : StepOutcome := move .ho .bi imm s

/-- `MOV B, E` (R269): B ← the ALU result of this step. Control word {EO, BI}. -/
def execMovBE (imm : Byte) (s : State) : StepOutcome := move .eo .bi imm s

/-- `MOV D, A` (R270): D ← A. Control word {AO, DI}. -/
def execMovDA (imm : Byte) (s : State) : StepOutcome := move .ao .di imm s

/-- `MOV D, B` (R271): D ← B. Control word {BO, DI}. -/
def execMovDB (imm : Byte) (s : State) : StepOutcome := move .bo .di imm s

/-- `MOV D, C` (R272): D ← the immediate. Control word {CO, DI}. -/
def execMovDC (imm : Byte) (s : State) : StepOutcome := move .co .di imm s

/-- `MOV D, X` (R273): D ← X. Control word {XO, DI}. -/
def execMovDX (imm : Byte) (s : State) : StepOutcome := move .xo .di imm s

/-- `MOV D, Y` (R274): D ← Y. Control word {YO, DI}. -/
def execMovDY (imm : Byte) (s : State) : StepOutcome := move .yo .di imm s

/-- `MOV D, U` (R275): D ← U. Control word {UO, DI}. -/
def execMovDU (imm : Byte) (s : State) : StepOutcome := move .uo .di imm s

/-- `MOV D, V` (R276): D ← V. Control word {VO, DI}. -/
def execMovDV (imm : Byte) (s : State) : StepOutcome := move .vo .di imm s

/-- `MOV D, M` (R277): D ← RAM[U:V]. Control word {MO, DI}. -/
def execMovDM (imm : Byte) (s : State) : StepOutcome := move .mo .di imm s

/-- `MOV D, P` (R278): D ← peripheral slot D at U:V. Control word {PO, DI}. -/
def execMovDP (imm : Byte) (s : State) : StepOutcome := move .po .di imm s

/-- `MOV D, G` (R279): D ← G (link-hi). Control word {GO, DI}. -/
def execMovDG (imm : Byte) (s : State) : StepOutcome := move .go .di imm s

/-- `MOV D, H` (R280): D ← H (link-lo). Control word {HO, DI}. -/
def execMovDH (imm : Byte) (s : State) : StepOutcome := move .ho .di imm s

/-- `MOV D, E` (R281): D ← the ALU result of this step. Control word {EO, DI}. -/
def execMovDE (imm : Byte) (s : State) : StepOutcome := move .eo .di imm s

/-- `MOV X, A` (R282): X ← A. Control word {AO, XI}. -/
def execMovXA (imm : Byte) (s : State) : StepOutcome := move .ao .xi imm s

/-- `MOV X, B` (R283): X ← B. Control word {BO, XI}. -/
def execMovXB (imm : Byte) (s : State) : StepOutcome := move .bo .xi imm s

/-- `MOV X, C` (R284): X ← the immediate. Control word {CO, XI}. -/
def execMovXC (imm : Byte) (s : State) : StepOutcome := move .co .xi imm s

/-- `MOV X, X` (R285): X ← X. Control word {XO, XI}. -/
def execMovXX (imm : Byte) (s : State) : StepOutcome := move .xo .xi imm s

/-- `MOV X, Y` (R286): X ← Y. Control word {YO, XI}. -/
def execMovXY (imm : Byte) (s : State) : StepOutcome := move .yo .xi imm s

/-- `MOV X, U` (R287): X ← U. Control word {UO, XI}. -/
def execMovXU (imm : Byte) (s : State) : StepOutcome := move .uo .xi imm s

/-- `MOV X, V` (R288): X ← V. Control word {VO, XI}. -/
def execMovXV (imm : Byte) (s : State) : StepOutcome := move .vo .xi imm s

/-- `MOV X, M` (R289): X ← RAM[U:V]. Control word {MO, XI}. -/
def execMovXM (imm : Byte) (s : State) : StepOutcome := move .mo .xi imm s

/-- `MOV X, P` (R290): X ← peripheral slot D at U:V. Control word {PO, XI}. -/
def execMovXP (imm : Byte) (s : State) : StepOutcome := move .po .xi imm s

/-- `MOV X, G` (R291): X ← G (link-hi). Control word {GO, XI}. -/
def execMovXG (imm : Byte) (s : State) : StepOutcome := move .go .xi imm s

/-- `MOV X, H` (R292): X ← H (link-lo). Control word {HO, XI}. -/
def execMovXH (imm : Byte) (s : State) : StepOutcome := move .ho .xi imm s

/-- `MOV X, E` (R293): X ← the ALU result of this step. Control word {EO, XI}. -/
def execMovXE (imm : Byte) (s : State) : StepOutcome := move .eo .xi imm s

/-- `MOV Y, A` (R294): Y ← A. Control word {AO, YI}. -/
def execMovYA (imm : Byte) (s : State) : StepOutcome := move .ao .yi imm s

/-- `MOV Y, B` (R295): Y ← B. Control word {BO, YI}. -/
def execMovYB (imm : Byte) (s : State) : StepOutcome := move .bo .yi imm s

/-- `MOV Y, C` (R296): Y ← the immediate. Control word {CO, YI}. -/
def execMovYC (imm : Byte) (s : State) : StepOutcome := move .co .yi imm s

/-- `MOV Y, X` (R297): Y ← X. Control word {XO, YI}. -/
def execMovYX (imm : Byte) (s : State) : StepOutcome := move .xo .yi imm s

/-- `MOV Y, Y` (R298): Y ← Y. Control word {YO, YI}. -/
def execMovYY (imm : Byte) (s : State) : StepOutcome := move .yo .yi imm s

/-- `MOV Y, U` (R299): Y ← U. Control word {UO, YI}. -/
def execMovYU (imm : Byte) (s : State) : StepOutcome := move .uo .yi imm s

/-- `MOV Y, V` (R300): Y ← V. Control word {VO, YI}. -/
def execMovYV (imm : Byte) (s : State) : StepOutcome := move .vo .yi imm s

/-- `MOV Y, M` (R301): Y ← RAM[U:V]. Control word {MO, YI}. -/
def execMovYM (imm : Byte) (s : State) : StepOutcome := move .mo .yi imm s

/-- `MOV Y, P` (R302): Y ← peripheral slot D at U:V. Control word {PO, YI}. -/
def execMovYP (imm : Byte) (s : State) : StepOutcome := move .po .yi imm s

/-- `MOV Y, G` (R303): Y ← G (link-hi). Control word {GO, YI}. -/
def execMovYG (imm : Byte) (s : State) : StepOutcome := move .go .yi imm s

/-- `MOV Y, H` (R304): Y ← H (link-lo). Control word {HO, YI}. -/
def execMovYH (imm : Byte) (s : State) : StepOutcome := move .ho .yi imm s

/-- `MOV Y, E` (R305): Y ← the ALU result of this step. Control word {EO, YI}. -/
def execMovYE (imm : Byte) (s : State) : StepOutcome := move .eo .yi imm s

/-- `MOV U, A` (R306): U ← A. Control word {AO, UI}. -/
def execMovUA (imm : Byte) (s : State) : StepOutcome := move .ao .ui imm s

/-- `MOV U, B` (R307): U ← B. Control word {BO, UI}. -/
def execMovUB (imm : Byte) (s : State) : StepOutcome := move .bo .ui imm s

/-- `MOV U, C` (R308): U ← the immediate. Control word {CO, UI}. -/
def execMovUC (imm : Byte) (s : State) : StepOutcome := move .co .ui imm s

/-- `MOV U, X` (R309): U ← X. Control word {XO, UI}. -/
def execMovUX (imm : Byte) (s : State) : StepOutcome := move .xo .ui imm s

/-- `MOV U, Y` (R310): U ← Y. Control word {YO, UI}. -/
def execMovUY (imm : Byte) (s : State) : StepOutcome := move .yo .ui imm s

/-- `MOV U, U` (R311): U ← U. Control word {UO, UI}. -/
def execMovUU (imm : Byte) (s : State) : StepOutcome := move .uo .ui imm s

/-- `MOV U, V` (R312): U ← V. Control word {VO, UI}. -/
def execMovUV (imm : Byte) (s : State) : StepOutcome := move .vo .ui imm s

/-- `MOV U, M` (R313): U ← RAM[U:V]. Control word {MO, UI}. -/
def execMovUM (imm : Byte) (s : State) : StepOutcome := move .mo .ui imm s

/-- `MOV U, P` (R314): U ← peripheral slot D at U:V. Control word {PO, UI}. -/
def execMovUP (imm : Byte) (s : State) : StepOutcome := move .po .ui imm s

/-- `MOV U, G` (R315): U ← G (link-hi). Control word {GO, UI}. -/
def execMovUG (imm : Byte) (s : State) : StepOutcome := move .go .ui imm s

/-- `MOV U, H` (R316): U ← H (link-lo). Control word {HO, UI}. -/
def execMovUH (imm : Byte) (s : State) : StepOutcome := move .ho .ui imm s

/-- `MOV U, E` (R317): U ← the ALU result of this step. Control word {EO, UI}. -/
def execMovUE (imm : Byte) (s : State) : StepOutcome := move .eo .ui imm s

/-- `MOV V, A` (R318): V ← A. Control word {AO, VI}. -/
def execMovVA (imm : Byte) (s : State) : StepOutcome := move .ao .vi imm s

/-- `MOV V, B` (R319): V ← B. Control word {BO, VI}. -/
def execMovVB (imm : Byte) (s : State) : StepOutcome := move .bo .vi imm s

/-- `MOV V, C` (R320): V ← the immediate. Control word {CO, VI}. -/
def execMovVC (imm : Byte) (s : State) : StepOutcome := move .co .vi imm s

/-- `MOV V, X` (R321): V ← X. Control word {XO, VI}. -/
def execMovVX (imm : Byte) (s : State) : StepOutcome := move .xo .vi imm s

/-- `MOV V, Y` (R322): V ← Y. Control word {YO, VI}. -/
def execMovVY (imm : Byte) (s : State) : StepOutcome := move .yo .vi imm s

/-- `MOV V, U` (R323): V ← U. Control word {UO, VI}. -/
def execMovVU (imm : Byte) (s : State) : StepOutcome := move .uo .vi imm s

/-- `MOV V, V` (R324): V ← V. Control word {VO, VI}. -/
def execMovVV (imm : Byte) (s : State) : StepOutcome := move .vo .vi imm s

/-- `MOV V, M` (R325): V ← RAM[U:V]. Control word {MO, VI}. -/
def execMovVM (imm : Byte) (s : State) : StepOutcome := move .mo .vi imm s

/-- `MOV V, P` (R326): V ← peripheral slot D at U:V. Control word {PO, VI}. -/
def execMovVP (imm : Byte) (s : State) : StepOutcome := move .po .vi imm s

/-- `MOV V, G` (R327): V ← G (link-hi). Control word {GO, VI}. -/
def execMovVG (imm : Byte) (s : State) : StepOutcome := move .go .vi imm s

/-- `MOV V, H` (R328): V ← H (link-lo). Control word {HO, VI}. -/
def execMovVH (imm : Byte) (s : State) : StepOutcome := move .ho .vi imm s

/-- `MOV V, E` (R329): V ← the ALU result of this step. Control word {EO, VI}. -/
def execMovVE (imm : Byte) (s : State) : StepOutcome := move .eo .vi imm s

/-- `MOV M, A` (R330): RAM[U:V] ← A. Control word {AO, MI}. -/
def execMovMA (imm : Byte) (s : State) : StepOutcome := move .ao .mi imm s

/-- `MOV M, B` (R331): RAM[U:V] ← B. Control word {BO, MI}. -/
def execMovMB (imm : Byte) (s : State) : StepOutcome := move .bo .mi imm s

/-- `MOV M, C` (R332): RAM[U:V] ← the immediate. Control word {CO, MI}. -/
def execMovMC (imm : Byte) (s : State) : StepOutcome := move .co .mi imm s

/-- `MOV M, X` (R333): RAM[U:V] ← X. Control word {XO, MI}. -/
def execMovMX (imm : Byte) (s : State) : StepOutcome := move .xo .mi imm s

/-- `MOV M, Y` (R334): RAM[U:V] ← Y. Control word {YO, MI}. -/
def execMovMY (imm : Byte) (s : State) : StepOutcome := move .yo .mi imm s

/-- `MOV M, U` (R335): RAM[U:V] ← U. Control word {UO, MI}. -/
def execMovMU (imm : Byte) (s : State) : StepOutcome := move .uo .mi imm s

/-- `MOV M, V` (R336): RAM[U:V] ← V. Control word {VO, MI}. -/
def execMovMV (imm : Byte) (s : State) : StepOutcome := move .vo .mi imm s

/-- `MOV M, M` (R337): RAM[U:V] ← RAM[U:V]. Control word {MO, MI}. -/
def execMovMM (imm : Byte) (s : State) : StepOutcome := move .mo .mi imm s

/-- `MOV M, P` (R338): RAM[U:V] ← peripheral slot D at U:V. Control word {PO, MI}. -/
def execMovMP (imm : Byte) (s : State) : StepOutcome := move .po .mi imm s

/-- `MOV M, G` (R339): RAM[U:V] ← G (link-hi). Control word {GO, MI}. -/
def execMovMG (imm : Byte) (s : State) : StepOutcome := move .go .mi imm s

/-- `MOV M, H` (R340): RAM[U:V] ← H (link-lo). Control word {HO, MI}. -/
def execMovMH (imm : Byte) (s : State) : StepOutcome := move .ho .mi imm s

/-- `MOV M, E` (R341): RAM[U:V] ← the ALU result of this step. Control word {EO, MI}. -/
def execMovME (imm : Byte) (s : State) : StepOutcome := move .eo .mi imm s

/-- `MOV P, A` (R342): peripheral slot D at U:V ← A. Control word {AO, PI}. -/
def execMovPA (imm : Byte) (s : State) : StepOutcome := move .ao .pi imm s

/-- `MOV P, B` (R343): peripheral slot D at U:V ← B. Control word {BO, PI}. -/
def execMovPB (imm : Byte) (s : State) : StepOutcome := move .bo .pi imm s

/-- `MOV P, C` (R344): peripheral slot D at U:V ← the immediate. Control word {CO, PI}. -/
def execMovPC (imm : Byte) (s : State) : StepOutcome := move .co .pi imm s

/-- `MOV P, X` (R345): peripheral slot D at U:V ← X. Control word {XO, PI}. -/
def execMovPX (imm : Byte) (s : State) : StepOutcome := move .xo .pi imm s

/-- `MOV P, Y` (R346): peripheral slot D at U:V ← Y. Control word {YO, PI}. -/
def execMovPY (imm : Byte) (s : State) : StepOutcome := move .yo .pi imm s

/-- `MOV P, U` (R347): peripheral slot D at U:V ← U. Control word {UO, PI}. -/
def execMovPU (imm : Byte) (s : State) : StepOutcome := move .uo .pi imm s

/-- `MOV P, V` (R348): peripheral slot D at U:V ← V. Control word {VO, PI}. -/
def execMovPV (imm : Byte) (s : State) : StepOutcome := move .vo .pi imm s

/-- `MOV P, M` (R349): peripheral slot D at U:V ← RAM[U:V]. Control word {MO, PI}. -/
def execMovPM (imm : Byte) (s : State) : StepOutcome := move .mo .pi imm s

/-- `MOV P, P` (R350): peripheral slot D at U:V ← peripheral slot D at U:V. Control word {PO, PI}. -/
def execMovPP (imm : Byte) (s : State) : StepOutcome := move .po .pi imm s

/-- `MOV P, G` (R351): peripheral slot D at U:V ← G (link-hi). Control word {GO, PI}. -/
def execMovPG (imm : Byte) (s : State) : StepOutcome := move .go .pi imm s

/-- `MOV P, H` (R352): peripheral slot D at U:V ← H (link-lo). Control word {HO, PI}. -/
def execMovPH (imm : Byte) (s : State) : StepOutcome := move .ho .pi imm s

/-- `MOV P, E` (R353): peripheral slot D at U:V ← the ALU result of this step. Control word {EO, PI}. -/
def execMovPE (imm : Byte) (s : State) : StepOutcome := move .eo .pi imm s

end Sys2Proof.Machine
end

