-- ==== Sys2Proof/Machine/Pairs.lean ====
section
/-! DEFINITION. Pair increment and memory with increment (45_reference_microcode.md R241 to R244). -/

namespace Sys2Proof.Machine

/-- `INXY` (R241): X:Y ← X:Y + 1. Control word {XYInc}. -/
def execInxy (imm : Byte) (s : State) : StepOutcome := retire [.xyInc] imm s

/-- `INUV` (R242): U:V ← U:V + 1. Control word {UVInc}. -/
def execInuv (imm : Byte) (s : State) : StepOutcome := retire [.uvInc] imm s

/-- `LDAI` (R243): A ← RAM[U:V], then U:V ← U:V + 1 (post-increment). Control word {MO, AI, UVInc}. -/
def execLdai (imm : Byte) (s : State) : StepOutcome := retire [.mo, .ai, .uvInc] imm s

/-- `STAI` (R244): U:V ← U:V + 1, then RAM[U:V] ← A (pre-increment). Control word {AO, MI, UVInc}. -/
def execStai (imm : Byte) (s : State) : StepOutcome := retire [.ao, .mi, .uvInc] imm s

end Sys2Proof.Machine
end

