-- ==== Sys2Proof/Machine/System.lean ====
section
/-! DEFINITION. `NOP`, `HLT` (45_reference_microcode.md R212, R213) and the unprogrammed opcodes (R209). -/

namespace Sys2Proof.Machine

/-- `NOP` (R212): the effects every non-halted step has, and no others. Control word {}. -/
def execNop (imm : Byte) (s : State) : StepOutcome := retire [] imm s

/-- `HLT` (R213): this step has only the effects every step has; the control word it leaves held asserts HLT, so every later
step is inert (42_control_flow.md R162). Control word {HLT}. -/
def execHlt (imm : Byte) (s : State) : StepOutcome := retire [.hlt] imm s

/-- An opcode that the reference microcode does not program (R209): control word 0xFFFFFFFF, a no-op. -/
def execUnprogrammed (imm : Byte) (s : State) : StepOutcome := retire [] imm s

end Sys2Proof.Machine
end

