-- ==== Sys2Proof/Syntax.lean ====
section
/-! DEFINITION. The instructions of the reference microcode: one constructor per row of spec/opcode_table.json
(45_reference_microcode.md, 46_reference_moves.md). The one operand field of an instruction word is its 8-bit
immediate (30_encoding.md R54, R55): every instruction has it, since every instruction copies it into register C. -/

namespace Sys2Proof

/-- The 141 instructions of the reference microcode. -/
inductive Instr where
  /-- `NOP`, opcode 0x00 (R212). -/
  | nop (imm : Byte)
  /-- `HLT`, opcode 0x01 (R213). -/
  | hlt (imm : Byte)
  /-- `MOV A, A`, opcode 0x10 (R246). -/
  | movAA (imm : Byte)
  /-- `MOV A, B`, opcode 0x11 (R247). -/
  | movAB (imm : Byte)
  /-- `MOV A, C`, opcode 0x12 (R248). -/
  | movAC (imm : Byte)
  /-- `MOV A, X`, opcode 0x13 (R249). -/
  | movAX (imm : Byte)
  /-- `MOV A, Y`, opcode 0x14 (R250). -/
  | movAY (imm : Byte)
  /-- `MOV A, U`, opcode 0x15 (R251). -/
  | movAU (imm : Byte)
  /-- `MOV A, V`, opcode 0x16 (R252). -/
  | movAV (imm : Byte)
  /-- `MOV A, M`, opcode 0x17 (R253). -/
  | movAM (imm : Byte)
  /-- `MOV A, P`, opcode 0x18 (R254). -/
  | movAP (imm : Byte)
  /-- `MOV A, G`, opcode 0x19 (R255). -/
  | movAG (imm : Byte)
  /-- `MOV A, H`, opcode 0x1A (R256). -/
  | movAH (imm : Byte)
  /-- `MOV A, E`, opcode 0x1B (R257). -/
  | movAE (imm : Byte)
  /-- `MOV B, A`, opcode 0x20 (R258). -/
  | movBA (imm : Byte)
  /-- `MOV B, B`, opcode 0x21 (R259). -/
  | movBB (imm : Byte)
  /-- `MOV B, C`, opcode 0x22 (R260). -/
  | movBC (imm : Byte)
  /-- `MOV B, X`, opcode 0x23 (R261). -/
  | movBX (imm : Byte)
  /-- `MOV B, Y`, opcode 0x24 (R262). -/
  | movBY (imm : Byte)
  /-- `MOV B, U`, opcode 0x25 (R263). -/
  | movBU (imm : Byte)
  /-- `MOV B, V`, opcode 0x26 (R264). -/
  | movBV (imm : Byte)
  /-- `MOV B, M`, opcode 0x27 (R265). -/
  | movBM (imm : Byte)
  /-- `MOV B, P`, opcode 0x28 (R266). -/
  | movBP (imm : Byte)
  /-- `MOV B, G`, opcode 0x29 (R267). -/
  | movBG (imm : Byte)
  /-- `MOV B, H`, opcode 0x2A (R268). -/
  | movBH (imm : Byte)
  /-- `MOV B, E`, opcode 0x2B (R269). -/
  | movBE (imm : Byte)
  /-- `MOV D, A`, opcode 0x30 (R270). -/
  | movDA (imm : Byte)
  /-- `MOV D, B`, opcode 0x31 (R271). -/
  | movDB (imm : Byte)
  /-- `MOV D, C`, opcode 0x32 (R272). -/
  | movDC (imm : Byte)
  /-- `MOV D, X`, opcode 0x33 (R273). -/
  | movDX (imm : Byte)
  /-- `MOV D, Y`, opcode 0x34 (R274). -/
  | movDY (imm : Byte)
  /-- `MOV D, U`, opcode 0x35 (R275). -/
  | movDU (imm : Byte)
  /-- `MOV D, V`, opcode 0x36 (R276). -/
  | movDV (imm : Byte)
  /-- `MOV D, M`, opcode 0x37 (R277). -/
  | movDM (imm : Byte)
  /-- `MOV D, P`, opcode 0x38 (R278). -/
  | movDP (imm : Byte)
  /-- `MOV D, G`, opcode 0x39 (R279). -/
  | movDG (imm : Byte)
  /-- `MOV D, H`, opcode 0x3A (R280). -/
  | movDH (imm : Byte)
  /-- `MOV D, E`, opcode 0x3B (R281). -/
  | movDE (imm : Byte)
  /-- `MOV X, A`, opcode 0x40 (R282). -/
  | movXA (imm : Byte)
  /-- `MOV X, B`, opcode 0x41 (R283). -/
  | movXB (imm : Byte)
  /-- `MOV X, C`, opcode 0x42 (R284). -/
  | movXC (imm : Byte)
  /-- `MOV X, X`, opcode 0x43 (R285). -/
  | movXX (imm : Byte)
  /-- `MOV X, Y`, opcode 0x44 (R286). -/
  | movXY (imm : Byte)
  /-- `MOV X, U`, opcode 0x45 (R287). -/
  | movXU (imm : Byte)
  /-- `MOV X, V`, opcode 0x46 (R288). -/
  | movXV (imm : Byte)
  /-- `MOV X, M`, opcode 0x47 (R289). -/
  | movXM (imm : Byte)
  /-- `MOV X, P`, opcode 0x48 (R290). -/
  | movXP (imm : Byte)
  /-- `MOV X, G`, opcode 0x49 (R291). -/
  | movXG (imm : Byte)
  /-- `MOV X, H`, opcode 0x4A (R292). -/
  | movXH (imm : Byte)
  /-- `MOV X, E`, opcode 0x4B (R293). -/
  | movXE (imm : Byte)
  /-- `MOV Y, A`, opcode 0x50 (R294). -/
  | movYA (imm : Byte)
  /-- `MOV Y, B`, opcode 0x51 (R295). -/
  | movYB (imm : Byte)
  /-- `MOV Y, C`, opcode 0x52 (R296). -/
  | movYC (imm : Byte)
  /-- `MOV Y, X`, opcode 0x53 (R297). -/
  | movYX (imm : Byte)
  /-- `MOV Y, Y`, opcode 0x54 (R298). -/
  | movYY (imm : Byte)
  /-- `MOV Y, U`, opcode 0x55 (R299). -/
  | movYU (imm : Byte)
  /-- `MOV Y, V`, opcode 0x56 (R300). -/
  | movYV (imm : Byte)
  /-- `MOV Y, M`, opcode 0x57 (R301). -/
  | movYM (imm : Byte)
  /-- `MOV Y, P`, opcode 0x58 (R302). -/
  | movYP (imm : Byte)
  /-- `MOV Y, G`, opcode 0x59 (R303). -/
  | movYG (imm : Byte)
  /-- `MOV Y, H`, opcode 0x5A (R304). -/
  | movYH (imm : Byte)
  /-- `MOV Y, E`, opcode 0x5B (R305). -/
  | movYE (imm : Byte)
  /-- `MOV U, A`, opcode 0x60 (R306). -/
  | movUA (imm : Byte)
  /-- `MOV U, B`, opcode 0x61 (R307). -/
  | movUB (imm : Byte)
  /-- `MOV U, C`, opcode 0x62 (R308). -/
  | movUC (imm : Byte)
  /-- `MOV U, X`, opcode 0x63 (R309). -/
  | movUX (imm : Byte)
  /-- `MOV U, Y`, opcode 0x64 (R310). -/
  | movUY (imm : Byte)
  /-- `MOV U, U`, opcode 0x65 (R311). -/
  | movUU (imm : Byte)
  /-- `MOV U, V`, opcode 0x66 (R312). -/
  | movUV (imm : Byte)
  /-- `MOV U, M`, opcode 0x67 (R313). -/
  | movUM (imm : Byte)
  /-- `MOV U, P`, opcode 0x68 (R314). -/
  | movUP (imm : Byte)
  /-- `MOV U, G`, opcode 0x69 (R315). -/
  | movUG (imm : Byte)
  /-- `MOV U, H`, opcode 0x6A (R316). -/
  | movUH (imm : Byte)
  /-- `MOV U, E`, opcode 0x6B (R317). -/
  | movUE (imm : Byte)
  /-- `MOV V, A`, opcode 0x70 (R318). -/
  | movVA (imm : Byte)
  /-- `MOV V, B`, opcode 0x71 (R319). -/
  | movVB (imm : Byte)
  /-- `MOV V, C`, opcode 0x72 (R320). -/
  | movVC (imm : Byte)
  /-- `MOV V, X`, opcode 0x73 (R321). -/
  | movVX (imm : Byte)
  /-- `MOV V, Y`, opcode 0x74 (R322). -/
  | movVY (imm : Byte)
  /-- `MOV V, U`, opcode 0x75 (R323). -/
  | movVU (imm : Byte)
  /-- `MOV V, V`, opcode 0x76 (R324). -/
  | movVV (imm : Byte)
  /-- `MOV V, M`, opcode 0x77 (R325). -/
  | movVM (imm : Byte)
  /-- `MOV V, P`, opcode 0x78 (R326). -/
  | movVP (imm : Byte)
  /-- `MOV V, G`, opcode 0x79 (R327). -/
  | movVG (imm : Byte)
  /-- `MOV V, H`, opcode 0x7A (R328). -/
  | movVH (imm : Byte)
  /-- `MOV V, E`, opcode 0x7B (R329). -/
  | movVE (imm : Byte)
  /-- `MOV M, A`, opcode 0x80 (R330). -/
  | movMA (imm : Byte)
  /-- `MOV M, B`, opcode 0x81 (R331). -/
  | movMB (imm : Byte)
  /-- `MOV M, C`, opcode 0x82 (R332). -/
  | movMC (imm : Byte)
  /-- `MOV M, X`, opcode 0x83 (R333). -/
  | movMX (imm : Byte)
  /-- `MOV M, Y`, opcode 0x84 (R334). -/
  | movMY (imm : Byte)
  /-- `MOV M, U`, opcode 0x85 (R335). -/
  | movMU (imm : Byte)
  /-- `MOV M, V`, opcode 0x86 (R336). -/
  | movMV (imm : Byte)
  /-- `MOV M, M`, opcode 0x87 (R337). -/
  | movMM (imm : Byte)
  /-- `MOV M, P`, opcode 0x88 (R338). -/
  | movMP (imm : Byte)
  /-- `MOV M, G`, opcode 0x89 (R339). -/
  | movMG (imm : Byte)
  /-- `MOV M, H`, opcode 0x8A (R340). -/
  | movMH (imm : Byte)
  /-- `MOV M, E`, opcode 0x8B (R341). -/
  | movME (imm : Byte)
  /-- `MOV P, A`, opcode 0x90 (R342). -/
  | movPA (imm : Byte)
  /-- `MOV P, B`, opcode 0x91 (R343). -/
  | movPB (imm : Byte)
  /-- `MOV P, C`, opcode 0x92 (R344). -/
  | movPC (imm : Byte)
  /-- `MOV P, X`, opcode 0x93 (R345). -/
  | movPX (imm : Byte)
  /-- `MOV P, Y`, opcode 0x94 (R346). -/
  | movPY (imm : Byte)
  /-- `MOV P, U`, opcode 0x95 (R347). -/
  | movPU (imm : Byte)
  /-- `MOV P, V`, opcode 0x96 (R348). -/
  | movPV (imm : Byte)
  /-- `MOV P, M`, opcode 0x97 (R349). -/
  | movPM (imm : Byte)
  /-- `MOV P, P`, opcode 0x98 (R350). -/
  | movPP (imm : Byte)
  /-- `MOV P, G`, opcode 0x99 (R351). -/
  | movPG (imm : Byte)
  /-- `MOV P, H`, opcode 0x9A (R352). -/
  | movPH (imm : Byte)
  /-- `MOV P, E`, opcode 0x9B (R353). -/
  | movPE (imm : Byte)
  /-- `ALU A`, opcode 0xA0 (R214). -/
  | aluA (imm : Byte)
  /-- `ALU B`, opcode 0xA1 (R216). -/
  | aluB (imm : Byte)
  /-- `ALU D`, opcode 0xA2 (R218). -/
  | aluD (imm : Byte)
  /-- `ALU X`, opcode 0xA3 (R220). -/
  | aluX (imm : Byte)
  /-- `ALU Y`, opcode 0xA4 (R222). -/
  | aluY (imm : Byte)
  /-- `ALU U`, opcode 0xA5 (R224). -/
  | aluU (imm : Byte)
  /-- `ALU V`, opcode 0xA6 (R226). -/
  | aluV (imm : Byte)
  /-- `ALU M`, opcode 0xA7 (R228). -/
  | aluM (imm : Byte)
  /-- `ALU P`, opcode 0xA8 (R230). -/
  | aluP (imm : Byte)
  /-- `ALUC A`, opcode 0xB0 (R215). -/
  | alucA (imm : Byte)
  /-- `ALUC B`, opcode 0xB1 (R217). -/
  | alucB (imm : Byte)
  /-- `ALUC D`, opcode 0xB2 (R219). -/
  | alucD (imm : Byte)
  /-- `ALUC X`, opcode 0xB3 (R221). -/
  | alucX (imm : Byte)
  /-- `ALUC Y`, opcode 0xB4 (R223). -/
  | alucY (imm : Byte)
  /-- `ALUC U`, opcode 0xB5 (R225). -/
  | alucU (imm : Byte)
  /-- `ALUC V`, opcode 0xB6 (R227). -/
  | alucV (imm : Byte)
  /-- `ALUC M`, opcode 0xB7 (R229). -/
  | alucM (imm : Byte)
  /-- `ALUC P`, opcode 0xB8 (R231). -/
  | alucP (imm : Byte)
  /-- `CMP`, opcode 0xC0 (R232). -/
  | cmp (imm : Byte)
  /-- `CMPC`, opcode 0xC1 (R233). -/
  | cmpc (imm : Byte)
  /-- `JMP`, opcode 0xD0 (R234). -/
  | jmp (imm : Byte)
  /-- `JC`, opcode 0xD1 (R235). -/
  | jc (imm : Byte)
  /-- `JNC`, opcode 0xD2 (R236). -/
  | jnc (imm : Byte)
  /-- `JE`, opcode 0xD3 (R237). -/
  | je (imm : Byte)
  /-- `JNE`, opcode 0xD4 (R238). -/
  | jne (imm : Byte)
  /-- `LINK`, opcode 0xD5 (R239). -/
  | link (imm : Byte)
  /-- `JALR`, opcode 0xD6 (R240). -/
  | jalr (imm : Byte)
  /-- `INXY`, opcode 0xE0 (R241). -/
  | inxy (imm : Byte)
  /-- `INUV`, opcode 0xE1 (R242). -/
  | inuv (imm : Byte)
  /-- `LDAI`, opcode 0xE2 (R243). -/
  | ldai (imm : Byte)
  /-- `STAI`, opcode 0xE3 (R244). -/
  | stai (imm : Byte)
deriving DecidableEq, Repr

end Sys2Proof
end

