-- ==== Sys2Proof/Machine/Dispatch.lean ====
section
/-! DEFINITION. One arm per instruction: the step that retires it. -/

namespace Sys2Proof.Machine

def exec (i : Instr) (s : State) : Host.Outcome State Fault Refusal :=
  match i with
  | .nop imm => Sys2Proof.Machine.execNop imm s
  | .hlt imm => Sys2Proof.Machine.execHlt imm s
  | .movAA imm => Sys2Proof.Machine.execMovAA imm s
  | .movAB imm => Sys2Proof.Machine.execMovAB imm s
  | .movAC imm => Sys2Proof.Machine.execMovAC imm s
  | .movAX imm => Sys2Proof.Machine.execMovAX imm s
  | .movAY imm => Sys2Proof.Machine.execMovAY imm s
  | .movAU imm => Sys2Proof.Machine.execMovAU imm s
  | .movAV imm => Sys2Proof.Machine.execMovAV imm s
  | .movAM imm => Sys2Proof.Machine.execMovAM imm s
  | .movAP imm => Sys2Proof.Machine.execMovAP imm s
  | .movAG imm => Sys2Proof.Machine.execMovAG imm s
  | .movAH imm => Sys2Proof.Machine.execMovAH imm s
  | .movAE imm => Sys2Proof.Machine.execMovAE imm s
  | .movBA imm => Sys2Proof.Machine.execMovBA imm s
  | .movBB imm => Sys2Proof.Machine.execMovBB imm s
  | .movBC imm => Sys2Proof.Machine.execMovBC imm s
  | .movBX imm => Sys2Proof.Machine.execMovBX imm s
  | .movBY imm => Sys2Proof.Machine.execMovBY imm s
  | .movBU imm => Sys2Proof.Machine.execMovBU imm s
  | .movBV imm => Sys2Proof.Machine.execMovBV imm s
  | .movBM imm => Sys2Proof.Machine.execMovBM imm s
  | .movBP imm => Sys2Proof.Machine.execMovBP imm s
  | .movBG imm => Sys2Proof.Machine.execMovBG imm s
  | .movBH imm => Sys2Proof.Machine.execMovBH imm s
  | .movBE imm => Sys2Proof.Machine.execMovBE imm s
  | .movDA imm => Sys2Proof.Machine.execMovDA imm s
  | .movDB imm => Sys2Proof.Machine.execMovDB imm s
  | .movDC imm => Sys2Proof.Machine.execMovDC imm s
  | .movDX imm => Sys2Proof.Machine.execMovDX imm s
  | .movDY imm => Sys2Proof.Machine.execMovDY imm s
  | .movDU imm => Sys2Proof.Machine.execMovDU imm s
  | .movDV imm => Sys2Proof.Machine.execMovDV imm s
  | .movDM imm => Sys2Proof.Machine.execMovDM imm s
  | .movDP imm => Sys2Proof.Machine.execMovDP imm s
  | .movDG imm => Sys2Proof.Machine.execMovDG imm s
  | .movDH imm => Sys2Proof.Machine.execMovDH imm s
  | .movDE imm => Sys2Proof.Machine.execMovDE imm s
  | .movXA imm => Sys2Proof.Machine.execMovXA imm s
  | .movXB imm => Sys2Proof.Machine.execMovXB imm s
  | .movXC imm => Sys2Proof.Machine.execMovXC imm s
  | .movXX imm => Sys2Proof.Machine.execMovXX imm s
  | .movXY imm => Sys2Proof.Machine.execMovXY imm s
  | .movXU imm => Sys2Proof.Machine.execMovXU imm s
  | .movXV imm => Sys2Proof.Machine.execMovXV imm s
  | .movXM imm => Sys2Proof.Machine.execMovXM imm s
  | .movXP imm => Sys2Proof.Machine.execMovXP imm s
  | .movXG imm => Sys2Proof.Machine.execMovXG imm s
  | .movXH imm => Sys2Proof.Machine.execMovXH imm s
  | .movXE imm => Sys2Proof.Machine.execMovXE imm s
  | .movYA imm => Sys2Proof.Machine.execMovYA imm s
  | .movYB imm => Sys2Proof.Machine.execMovYB imm s
  | .movYC imm => Sys2Proof.Machine.execMovYC imm s
  | .movYX imm => Sys2Proof.Machine.execMovYX imm s
  | .movYY imm => Sys2Proof.Machine.execMovYY imm s
  | .movYU imm => Sys2Proof.Machine.execMovYU imm s
  | .movYV imm => Sys2Proof.Machine.execMovYV imm s
  | .movYM imm => Sys2Proof.Machine.execMovYM imm s
  | .movYP imm => Sys2Proof.Machine.execMovYP imm s
  | .movYG imm => Sys2Proof.Machine.execMovYG imm s
  | .movYH imm => Sys2Proof.Machine.execMovYH imm s
  | .movYE imm => Sys2Proof.Machine.execMovYE imm s
  | .movUA imm => Sys2Proof.Machine.execMovUA imm s
  | .movUB imm => Sys2Proof.Machine.execMovUB imm s
  | .movUC imm => Sys2Proof.Machine.execMovUC imm s
  | .movUX imm => Sys2Proof.Machine.execMovUX imm s
  | .movUY imm => Sys2Proof.Machine.execMovUY imm s
  | .movUU imm => Sys2Proof.Machine.execMovUU imm s
  | .movUV imm => Sys2Proof.Machine.execMovUV imm s
  | .movUM imm => Sys2Proof.Machine.execMovUM imm s
  | .movUP imm => Sys2Proof.Machine.execMovUP imm s
  | .movUG imm => Sys2Proof.Machine.execMovUG imm s
  | .movUH imm => Sys2Proof.Machine.execMovUH imm s
  | .movUE imm => Sys2Proof.Machine.execMovUE imm s
  | .movVA imm => Sys2Proof.Machine.execMovVA imm s
  | .movVB imm => Sys2Proof.Machine.execMovVB imm s
  | .movVC imm => Sys2Proof.Machine.execMovVC imm s
  | .movVX imm => Sys2Proof.Machine.execMovVX imm s
  | .movVY imm => Sys2Proof.Machine.execMovVY imm s
  | .movVU imm => Sys2Proof.Machine.execMovVU imm s
  | .movVV imm => Sys2Proof.Machine.execMovVV imm s
  | .movVM imm => Sys2Proof.Machine.execMovVM imm s
  | .movVP imm => Sys2Proof.Machine.execMovVP imm s
  | .movVG imm => Sys2Proof.Machine.execMovVG imm s
  | .movVH imm => Sys2Proof.Machine.execMovVH imm s
  | .movVE imm => Sys2Proof.Machine.execMovVE imm s
  | .movMA imm => Sys2Proof.Machine.execMovMA imm s
  | .movMB imm => Sys2Proof.Machine.execMovMB imm s
  | .movMC imm => Sys2Proof.Machine.execMovMC imm s
  | .movMX imm => Sys2Proof.Machine.execMovMX imm s
  | .movMY imm => Sys2Proof.Machine.execMovMY imm s
  | .movMU imm => Sys2Proof.Machine.execMovMU imm s
  | .movMV imm => Sys2Proof.Machine.execMovMV imm s
  | .movMM imm => Sys2Proof.Machine.execMovMM imm s
  | .movMP imm => Sys2Proof.Machine.execMovMP imm s
  | .movMG imm => Sys2Proof.Machine.execMovMG imm s
  | .movMH imm => Sys2Proof.Machine.execMovMH imm s
  | .movME imm => Sys2Proof.Machine.execMovME imm s
  | .movPA imm => Sys2Proof.Machine.execMovPA imm s
  | .movPB imm => Sys2Proof.Machine.execMovPB imm s
  | .movPC imm => Sys2Proof.Machine.execMovPC imm s
  | .movPX imm => Sys2Proof.Machine.execMovPX imm s
  | .movPY imm => Sys2Proof.Machine.execMovPY imm s
  | .movPU imm => Sys2Proof.Machine.execMovPU imm s
  | .movPV imm => Sys2Proof.Machine.execMovPV imm s
  | .movPM imm => Sys2Proof.Machine.execMovPM imm s
  | .movPP imm => Sys2Proof.Machine.execMovPP imm s
  | .movPG imm => Sys2Proof.Machine.execMovPG imm s
  | .movPH imm => Sys2Proof.Machine.execMovPH imm s
  | .movPE imm => Sys2Proof.Machine.execMovPE imm s
  | .aluA imm => Sys2Proof.Machine.execAluA imm s
  | .aluB imm => Sys2Proof.Machine.execAluB imm s
  | .aluD imm => Sys2Proof.Machine.execAluD imm s
  | .aluX imm => Sys2Proof.Machine.execAluX imm s
  | .aluY imm => Sys2Proof.Machine.execAluY imm s
  | .aluU imm => Sys2Proof.Machine.execAluU imm s
  | .aluV imm => Sys2Proof.Machine.execAluV imm s
  | .aluM imm => Sys2Proof.Machine.execAluM imm s
  | .aluP imm => Sys2Proof.Machine.execAluP imm s
  | .alucA imm => Sys2Proof.Machine.execAlucA imm s
  | .alucB imm => Sys2Proof.Machine.execAlucB imm s
  | .alucD imm => Sys2Proof.Machine.execAlucD imm s
  | .alucX imm => Sys2Proof.Machine.execAlucX imm s
  | .alucY imm => Sys2Proof.Machine.execAlucY imm s
  | .alucU imm => Sys2Proof.Machine.execAlucU imm s
  | .alucV imm => Sys2Proof.Machine.execAlucV imm s
  | .alucM imm => Sys2Proof.Machine.execAlucM imm s
  | .alucP imm => Sys2Proof.Machine.execAlucP imm s
  | .cmp imm => Sys2Proof.Machine.execCmp imm s
  | .cmpc imm => Sys2Proof.Machine.execCmpc imm s
  | .jmp imm => Sys2Proof.Machine.execJmp imm s
  | .jc imm => Sys2Proof.Machine.execJc imm s
  | .jnc imm => Sys2Proof.Machine.execJnc imm s
  | .je imm => Sys2Proof.Machine.execJe imm s
  | .jne imm => Sys2Proof.Machine.execJne imm s
  | .link imm => Sys2Proof.Machine.execLink imm s
  | .jalr imm => Sys2Proof.Machine.execJalr imm s
  | .inxy imm => Sys2Proof.Machine.execInxy imm s
  | .inuv imm => Sys2Proof.Machine.execInuv imm s
  | .ldai imm => Sys2Proof.Machine.execLdai imm s
  | .stai imm => Sys2Proof.Machine.execStai imm s

end Sys2Proof.Machine
end

