-- ==== Sys2Proof/Decode.lean ====
section
/-! DEFINITION. The instruction word (30_encoding.md R54): the decoder of the reference microcode's opcodes, total on any
word and rejecting by name, and the encoder, both written from the opcode table (45_reference_microcode.md R208, R211;
46_reference_moves.md). -/

namespace Sys2Proof

/-- The opcode of an instruction word: bits 15:8, the upper byte (30_encoding.md R54). -/
def opcodeField (w : InstrWord) : Byte := w.extractLsb' 8 8

/-- The immediate of an instruction word: bits 7:0, the lower byte (30_encoding.md R54). -/
def immediateField (w : InstrWord) : Byte := w.extractLsb' 0 8

/-- The instruction word of an opcode and an immediate (30_encoding.md R54). -/
def instrWord (opcode immediate : Byte) : InstrWord := opcode ++ immediate

/-- Why a word is no instruction of the reference microcode. -/
inductive Reject where
  /-- The opcode is one of 45_reference_microcode.md R209: no entry is programmed. It does not trap: the machine runs it as
  a no-op (R209, 30_encoding.md R68; DEDUCED, assumption 11). -/
  | unprogrammed (opcode : Byte)
deriving DecidableEq, Repr

/-- The instruction an opcode and an immediate stand for, by the reference microcode's opcode table (R208). -/
def decodeBytes (opcode imm : Byte) : Except Reject Instr :=
  match opcode.toNat with
  | 0x00 => .ok (.nop imm)
  | 0x01 => .ok (.hlt imm)
  | 0x10 => .ok (.movAA imm)
  | 0x11 => .ok (.movAB imm)
  | 0x12 => .ok (.movAC imm)
  | 0x13 => .ok (.movAX imm)
  | 0x14 => .ok (.movAY imm)
  | 0x15 => .ok (.movAU imm)
  | 0x16 => .ok (.movAV imm)
  | 0x17 => .ok (.movAM imm)
  | 0x18 => .ok (.movAP imm)
  | 0x19 => .ok (.movAG imm)
  | 0x1A => .ok (.movAH imm)
  | 0x1B => .ok (.movAE imm)
  | 0x20 => .ok (.movBA imm)
  | 0x21 => .ok (.movBB imm)
  | 0x22 => .ok (.movBC imm)
  | 0x23 => .ok (.movBX imm)
  | 0x24 => .ok (.movBY imm)
  | 0x25 => .ok (.movBU imm)
  | 0x26 => .ok (.movBV imm)
  | 0x27 => .ok (.movBM imm)
  | 0x28 => .ok (.movBP imm)
  | 0x29 => .ok (.movBG imm)
  | 0x2A => .ok (.movBH imm)
  | 0x2B => .ok (.movBE imm)
  | 0x30 => .ok (.movDA imm)
  | 0x31 => .ok (.movDB imm)
  | 0x32 => .ok (.movDC imm)
  | 0x33 => .ok (.movDX imm)
  | 0x34 => .ok (.movDY imm)
  | 0x35 => .ok (.movDU imm)
  | 0x36 => .ok (.movDV imm)
  | 0x37 => .ok (.movDM imm)
  | 0x38 => .ok (.movDP imm)
  | 0x39 => .ok (.movDG imm)
  | 0x3A => .ok (.movDH imm)
  | 0x3B => .ok (.movDE imm)
  | 0x40 => .ok (.movXA imm)
  | 0x41 => .ok (.movXB imm)
  | 0x42 => .ok (.movXC imm)
  | 0x43 => .ok (.movXX imm)
  | 0x44 => .ok (.movXY imm)
  | 0x45 => .ok (.movXU imm)
  | 0x46 => .ok (.movXV imm)
  | 0x47 => .ok (.movXM imm)
  | 0x48 => .ok (.movXP imm)
  | 0x49 => .ok (.movXG imm)
  | 0x4A => .ok (.movXH imm)
  | 0x4B => .ok (.movXE imm)
  | 0x50 => .ok (.movYA imm)
  | 0x51 => .ok (.movYB imm)
  | 0x52 => .ok (.movYC imm)
  | 0x53 => .ok (.movYX imm)
  | 0x54 => .ok (.movYY imm)
  | 0x55 => .ok (.movYU imm)
  | 0x56 => .ok (.movYV imm)
  | 0x57 => .ok (.movYM imm)
  | 0x58 => .ok (.movYP imm)
  | 0x59 => .ok (.movYG imm)
  | 0x5A => .ok (.movYH imm)
  | 0x5B => .ok (.movYE imm)
  | 0x60 => .ok (.movUA imm)
  | 0x61 => .ok (.movUB imm)
  | 0x62 => .ok (.movUC imm)
  | 0x63 => .ok (.movUX imm)
  | 0x64 => .ok (.movUY imm)
  | 0x65 => .ok (.movUU imm)
  | 0x66 => .ok (.movUV imm)
  | 0x67 => .ok (.movUM imm)
  | 0x68 => .ok (.movUP imm)
  | 0x69 => .ok (.movUG imm)
  | 0x6A => .ok (.movUH imm)
  | 0x6B => .ok (.movUE imm)
  | 0x70 => .ok (.movVA imm)
  | 0x71 => .ok (.movVB imm)
  | 0x72 => .ok (.movVC imm)
  | 0x73 => .ok (.movVX imm)
  | 0x74 => .ok (.movVY imm)
  | 0x75 => .ok (.movVU imm)
  | 0x76 => .ok (.movVV imm)
  | 0x77 => .ok (.movVM imm)
  | 0x78 => .ok (.movVP imm)
  | 0x79 => .ok (.movVG imm)
  | 0x7A => .ok (.movVH imm)
  | 0x7B => .ok (.movVE imm)
  | 0x80 => .ok (.movMA imm)
  | 0x81 => .ok (.movMB imm)
  | 0x82 => .ok (.movMC imm)
  | 0x83 => .ok (.movMX imm)
  | 0x84 => .ok (.movMY imm)
  | 0x85 => .ok (.movMU imm)
  | 0x86 => .ok (.movMV imm)
  | 0x87 => .ok (.movMM imm)
  | 0x88 => .ok (.movMP imm)
  | 0x89 => .ok (.movMG imm)
  | 0x8A => .ok (.movMH imm)
  | 0x8B => .ok (.movME imm)
  | 0x90 => .ok (.movPA imm)
  | 0x91 => .ok (.movPB imm)
  | 0x92 => .ok (.movPC imm)
  | 0x93 => .ok (.movPX imm)
  | 0x94 => .ok (.movPY imm)
  | 0x95 => .ok (.movPU imm)
  | 0x96 => .ok (.movPV imm)
  | 0x97 => .ok (.movPM imm)
  | 0x98 => .ok (.movPP imm)
  | 0x99 => .ok (.movPG imm)
  | 0x9A => .ok (.movPH imm)
  | 0x9B => .ok (.movPE imm)
  | 0xA0 => .ok (.aluA imm)
  | 0xA1 => .ok (.aluB imm)
  | 0xA2 => .ok (.aluD imm)
  | 0xA3 => .ok (.aluX imm)
  | 0xA4 => .ok (.aluY imm)
  | 0xA5 => .ok (.aluU imm)
  | 0xA6 => .ok (.aluV imm)
  | 0xA7 => .ok (.aluM imm)
  | 0xA8 => .ok (.aluP imm)
  | 0xB0 => .ok (.alucA imm)
  | 0xB1 => .ok (.alucB imm)
  | 0xB2 => .ok (.alucD imm)
  | 0xB3 => .ok (.alucX imm)
  | 0xB4 => .ok (.alucY imm)
  | 0xB5 => .ok (.alucU imm)
  | 0xB6 => .ok (.alucV imm)
  | 0xB7 => .ok (.alucM imm)
  | 0xB8 => .ok (.alucP imm)
  | 0xC0 => .ok (.cmp imm)
  | 0xC1 => .ok (.cmpc imm)
  | 0xD0 => .ok (.jmp imm)
  | 0xD1 => .ok (.jc imm)
  | 0xD2 => .ok (.jnc imm)
  | 0xD3 => .ok (.je imm)
  | 0xD4 => .ok (.jne imm)
  | 0xD5 => .ok (.link imm)
  | 0xD6 => .ok (.jalr imm)
  | 0xE0 => .ok (.inxy imm)
  | 0xE1 => .ok (.inuv imm)
  | 0xE2 => .ok (.ldai imm)
  | 0xE3 => .ok (.stai imm)
  | _ => .error (.unprogrammed opcode)

/-- The decoder on a whole instruction word. -/
def decode (w : InstrWord) : Except Reject Instr :=
  decodeBytes (opcodeField w) (immediateField w)

/-- The opcode of an instruction (spec/opcode_table.json; R211's `(index(d)+1) << 4 | index(s)` for the moves). -/
def opcodeOf : Instr → Byte
  | .nop _ => 0x00
  | .hlt _ => 0x01
  | .movAA _ => 0x10
  | .movAB _ => 0x11
  | .movAC _ => 0x12
  | .movAX _ => 0x13
  | .movAY _ => 0x14
  | .movAU _ => 0x15
  | .movAV _ => 0x16
  | .movAM _ => 0x17
  | .movAP _ => 0x18
  | .movAG _ => 0x19
  | .movAH _ => 0x1A
  | .movAE _ => 0x1B
  | .movBA _ => 0x20
  | .movBB _ => 0x21
  | .movBC _ => 0x22
  | .movBX _ => 0x23
  | .movBY _ => 0x24
  | .movBU _ => 0x25
  | .movBV _ => 0x26
  | .movBM _ => 0x27
  | .movBP _ => 0x28
  | .movBG _ => 0x29
  | .movBH _ => 0x2A
  | .movBE _ => 0x2B
  | .movDA _ => 0x30
  | .movDB _ => 0x31
  | .movDC _ => 0x32
  | .movDX _ => 0x33
  | .movDY _ => 0x34
  | .movDU _ => 0x35
  | .movDV _ => 0x36
  | .movDM _ => 0x37
  | .movDP _ => 0x38
  | .movDG _ => 0x39
  | .movDH _ => 0x3A
  | .movDE _ => 0x3B
  | .movXA _ => 0x40
  | .movXB _ => 0x41
  | .movXC _ => 0x42
  | .movXX _ => 0x43
  | .movXY _ => 0x44
  | .movXU _ => 0x45
  | .movXV _ => 0x46
  | .movXM _ => 0x47
  | .movXP _ => 0x48
  | .movXG _ => 0x49
  | .movXH _ => 0x4A
  | .movXE _ => 0x4B
  | .movYA _ => 0x50
  | .movYB _ => 0x51
  | .movYC _ => 0x52
  | .movYX _ => 0x53
  | .movYY _ => 0x54
  | .movYU _ => 0x55
  | .movYV _ => 0x56
  | .movYM _ => 0x57
  | .movYP _ => 0x58
  | .movYG _ => 0x59
  | .movYH _ => 0x5A
  | .movYE _ => 0x5B
  | .movUA _ => 0x60
  | .movUB _ => 0x61
  | .movUC _ => 0x62
  | .movUX _ => 0x63
  | .movUY _ => 0x64
  | .movUU _ => 0x65
  | .movUV _ => 0x66
  | .movUM _ => 0x67
  | .movUP _ => 0x68
  | .movUG _ => 0x69
  | .movUH _ => 0x6A
  | .movUE _ => 0x6B
  | .movVA _ => 0x70
  | .movVB _ => 0x71
  | .movVC _ => 0x72
  | .movVX _ => 0x73
  | .movVY _ => 0x74
  | .movVU _ => 0x75
  | .movVV _ => 0x76
  | .movVM _ => 0x77
  | .movVP _ => 0x78
  | .movVG _ => 0x79
  | .movVH _ => 0x7A
  | .movVE _ => 0x7B
  | .movMA _ => 0x80
  | .movMB _ => 0x81
  | .movMC _ => 0x82
  | .movMX _ => 0x83
  | .movMY _ => 0x84
  | .movMU _ => 0x85
  | .movMV _ => 0x86
  | .movMM _ => 0x87
  | .movMP _ => 0x88
  | .movMG _ => 0x89
  | .movMH _ => 0x8A
  | .movME _ => 0x8B
  | .movPA _ => 0x90
  | .movPB _ => 0x91
  | .movPC _ => 0x92
  | .movPX _ => 0x93
  | .movPY _ => 0x94
  | .movPU _ => 0x95
  | .movPV _ => 0x96
  | .movPM _ => 0x97
  | .movPP _ => 0x98
  | .movPG _ => 0x99
  | .movPH _ => 0x9A
  | .movPE _ => 0x9B
  | .aluA _ => 0xA0
  | .aluB _ => 0xA1
  | .aluD _ => 0xA2
  | .aluX _ => 0xA3
  | .aluY _ => 0xA4
  | .aluU _ => 0xA5
  | .aluV _ => 0xA6
  | .aluM _ => 0xA7
  | .aluP _ => 0xA8
  | .alucA _ => 0xB0
  | .alucB _ => 0xB1
  | .alucD _ => 0xB2
  | .alucX _ => 0xB3
  | .alucY _ => 0xB4
  | .alucU _ => 0xB5
  | .alucV _ => 0xB6
  | .alucM _ => 0xB7
  | .alucP _ => 0xB8
  | .cmp _ => 0xC0
  | .cmpc _ => 0xC1
  | .jmp _ => 0xD0
  | .jc _ => 0xD1
  | .jnc _ => 0xD2
  | .je _ => 0xD3
  | .jne _ => 0xD4
  | .link _ => 0xD5
  | .jalr _ => 0xD6
  | .inxy _ => 0xE0
  | .inuv _ => 0xE1
  | .ldai _ => 0xE2
  | .stai _ => 0xE3

/-- The immediate of an instruction. -/
def immediateOf : Instr → Byte
  | .nop imm => imm
  | .hlt imm => imm
  | .movAA imm => imm
  | .movAB imm => imm
  | .movAC imm => imm
  | .movAX imm => imm
  | .movAY imm => imm
  | .movAU imm => imm
  | .movAV imm => imm
  | .movAM imm => imm
  | .movAP imm => imm
  | .movAG imm => imm
  | .movAH imm => imm
  | .movAE imm => imm
  | .movBA imm => imm
  | .movBB imm => imm
  | .movBC imm => imm
  | .movBX imm => imm
  | .movBY imm => imm
  | .movBU imm => imm
  | .movBV imm => imm
  | .movBM imm => imm
  | .movBP imm => imm
  | .movBG imm => imm
  | .movBH imm => imm
  | .movBE imm => imm
  | .movDA imm => imm
  | .movDB imm => imm
  | .movDC imm => imm
  | .movDX imm => imm
  | .movDY imm => imm
  | .movDU imm => imm
  | .movDV imm => imm
  | .movDM imm => imm
  | .movDP imm => imm
  | .movDG imm => imm
  | .movDH imm => imm
  | .movDE imm => imm
  | .movXA imm => imm
  | .movXB imm => imm
  | .movXC imm => imm
  | .movXX imm => imm
  | .movXY imm => imm
  | .movXU imm => imm
  | .movXV imm => imm
  | .movXM imm => imm
  | .movXP imm => imm
  | .movXG imm => imm
  | .movXH imm => imm
  | .movXE imm => imm
  | .movYA imm => imm
  | .movYB imm => imm
  | .movYC imm => imm
  | .movYX imm => imm
  | .movYY imm => imm
  | .movYU imm => imm
  | .movYV imm => imm
  | .movYM imm => imm
  | .movYP imm => imm
  | .movYG imm => imm
  | .movYH imm => imm
  | .movYE imm => imm
  | .movUA imm => imm
  | .movUB imm => imm
  | .movUC imm => imm
  | .movUX imm => imm
  | .movUY imm => imm
  | .movUU imm => imm
  | .movUV imm => imm
  | .movUM imm => imm
  | .movUP imm => imm
  | .movUG imm => imm
  | .movUH imm => imm
  | .movUE imm => imm
  | .movVA imm => imm
  | .movVB imm => imm
  | .movVC imm => imm
  | .movVX imm => imm
  | .movVY imm => imm
  | .movVU imm => imm
  | .movVV imm => imm
  | .movVM imm => imm
  | .movVP imm => imm
  | .movVG imm => imm
  | .movVH imm => imm
  | .movVE imm => imm
  | .movMA imm => imm
  | .movMB imm => imm
  | .movMC imm => imm
  | .movMX imm => imm
  | .movMY imm => imm
  | .movMU imm => imm
  | .movMV imm => imm
  | .movMM imm => imm
  | .movMP imm => imm
  | .movMG imm => imm
  | .movMH imm => imm
  | .movME imm => imm
  | .movPA imm => imm
  | .movPB imm => imm
  | .movPC imm => imm
  | .movPX imm => imm
  | .movPY imm => imm
  | .movPU imm => imm
  | .movPV imm => imm
  | .movPM imm => imm
  | .movPP imm => imm
  | .movPG imm => imm
  | .movPH imm => imm
  | .movPE imm => imm
  | .aluA imm => imm
  | .aluB imm => imm
  | .aluD imm => imm
  | .aluX imm => imm
  | .aluY imm => imm
  | .aluU imm => imm
  | .aluV imm => imm
  | .aluM imm => imm
  | .aluP imm => imm
  | .alucA imm => imm
  | .alucB imm => imm
  | .alucD imm => imm
  | .alucX imm => imm
  | .alucY imm => imm
  | .alucU imm => imm
  | .alucV imm => imm
  | .alucM imm => imm
  | .alucP imm => imm
  | .cmp imm => imm
  | .cmpc imm => imm
  | .jmp imm => imm
  | .jc imm => imm
  | .jnc imm => imm
  | .je imm => imm
  | .jne imm => imm
  | .link imm => imm
  | .jalr imm => imm
  | .inxy imm => imm
  | .inuv imm => imm
  | .ldai imm => imm
  | .stai imm => imm

/-- The encoder: the instruction word of an instruction (30_encoding.md R54). -/
def encode (i : Instr) : InstrWord := instrWord (opcodeOf i) (immediateOf i)

/-- The word that `nbits` bits of `w` are, as spec/opcode_table.json numbers them: bit 0 is the least significant bit of
the one 16-bit word, and bits above `nbits` are 0. -/
def tableWord (nbits w : Nat) : InstrWord := BitVec.ofNat 16 (w % 2 ^ nbits)

/-- The instruction the decoder reads from an instruction whose bits are `w`. -/
def decodeTableWord (nbits w : Nat) : Option Instr :=
  match decode (tableWord nbits w) with
  | .ok i => some i
  | .error _ => none

end Sys2Proof
end

