-- ==== Sys2Proof/WellFormed.lean ====
section
/-! DEFINITION. The checks on data that its type does not make well formed: a bit layout, a decoder table, the guard sets
and the recordings of the trace engine. Every term of `Instr` is well formed as it stands: its one operand is an 8-bit
immediate, and every value of it is allowed (spec/30_encoding.md R55, R68). -/

namespace Sys2Proof

/-- A bit layout maps no two signals to one bit (00_scope.md R9: `CW_LAYOUT` is injective). -/
def layoutOk (layout : Layout) : Bool := decide layout.toList.Nodup

/-- A list of entries has a decoder table's capacity, at least 1024 entries (60_exceptions.md R364). -/
def tableOk (entries : List ControlWord) : Bool := decide (1024 ≤ entries.length)

open Sys2Proof.Machine

/-- The guard sets a recorder makes: none, an address, an address and flags (43_trace_engine.md R167, R177). -/
def recordedGuardOk : List GuardKind → Bool
  | [] => true
  | [.address _] => true
  | [.address _, .flags _] => true
  | _ => false

/-- The guard sets that arise on any instruction: a recorder's, or the synthetic instruction's (43_trace_engine.md R167). -/
def guardOk (g : List GuardKind) : Bool := recordedGuardOk g || decide (g = [.fail])

/-- A recording is well formed: it is not empty, its first instruction alone is a breakpoint, and every guard set is a
recorder's (43_trace_engine.md R177). -/
def recordingOk : List Instruction → Bool
  | [] => false
  | i :: rest => i.isBreakpoint && recordedGuardOk i.guard && rest.all fun j => !j.isBreakpoint && recordedGuardOk j.guard

/-- A microcode's layout is well formed; its table is by its type. -/
def microcodeOk : Microcode → Bool
  | .reference => true
  | .image layout _ => layoutOk layout

end Sys2Proof
end

