-- ==== Sys2Proof/Machine/Microcode.lean ====
section
/-! DEFINITION. The decoder table `ROM` (spec/10_state.md R25, 30_encoding.md R56): its address, its load and store, the
reference microcode's raw control words as the rules of 45_reference_microcode.md and 46_reference_moves.md print them,
and the control-flow class of an opcode (43_trace_engine.md R176). The meanings in Machine/ are written from the signal
sets of the same rules. -/

namespace Sys2Proof.Machine

/-- The decoder-table address `carryFlag<<9 | equalFlag<<8 | opcode` (30_encoding.md R56). -/
def decoderAddress (f : Flags) (opcode : Byte) : BitVec 10 :=
  ((BitVec.ofBool f.carry).setWidth 10 <<< 9) ||| ((BitVec.ofBool f.equal).setWidth 10 <<< 8) ||| opcode.setWidth 10

/-- An unprogrammed entry, which is also the default control word: no signal asserted (R58, R60). -/
def defaultControlWord : ControlWord := 0xFFFFFFFF

/-- The decoder table with a given word at each address. -/
def tableOfEntries (entry : Nat → ControlWord) : DecoderTable :=
  { toArray := ((List.range 1024).map entry).toArray, size_toArray := by simp }

/-- The decoder table of a list of entries, where it has the capacity: the first 1024 are used (60_exceptions.md R364, decision
D33). -/
def tableOfList (entries : List ControlWord) : Option DecoderTable :=
  if tableOk entries then some (tableOfEntries fun i => entries.getD i defaultControlWord) else none

/-- `load(opcode, carryFlag, equalFlag)` from a decoder table (R56). -/
def loadEntry (table : DecoderTable) (address : BitVec 10) : ControlWord := table[address.toNat]'address.isLt

/-- `store(address, value)` (R56): used only when a table is built, never while the core runs. -/
def storeEntry (table : DecoderTable) (address : BitVec 10) (value : ControlWord) : DecoderTable :=
  table.set address.toNat value address.isLt

/-- The entries of one opcode: the same word whatever the flags, or one word for each value of (carryFlag, equalFlag), in the
order (0,0), (0,1), (1,0), (1,1) (45_reference_microcode.md, R235). -/
inductive Entry where
  | same (word : ControlWord)
  | byFlags (word00 word01 word10 word11 : ControlWord)
deriving DecidableEq, Repr

/-- The entry for the latched flags. -/
def entryWord (e : Entry) (f : Flags) : ControlWord :=
  match e with
  | .same w => w
  | .byFlags w00 w01 w10 w11 => if f.carry then (if f.equal then w11 else w10) else (if f.equal then w01 else w00)

/-- The moves: the row of a destination holds the words of the sources A, B, C, X, Y, U, V, M, P, G, H, E (R246 to R353). -/
def moveRows : List (List ControlWord) :=
  [ -- to A
    [0xFFF7FDFF, 0xFFF7FBFF, 0xFFF7F7FF, 0xFFF7DFFF, 0xFFF7BFFF, 0xFFF77FFF, 0xFFF6FFFF, 0xFFF5FFFF, 0xFFF3FFFF, 0xFFF7FF7F, 0xFFF7FEFF, 0xFFF7EFFF],
    -- to B
    [0xFFEFFDFF, 0xFFEFFBFF, 0xFFEFF7FF, 0xFFEFDFFF, 0xFFEFBFFF, 0xFFEF7FFF, 0xFFEEFFFF, 0xFFEDFFFF, 0xFFEBFFFF, 0xFFEFFF7F, 0xFFEFFEFF, 0xFFEFEFFF],
    -- to D
    [0xFFDFFDFF, 0xFFDFFBFF, 0xFFDFF7FF, 0xFFDFDFFF, 0xFFDFBFFF, 0xFFDF7FFF, 0xFFDEFFFF, 0xFFDDFFFF, 0xFFDBFFFF, 0xFFDFFF7F, 0xFFDFFEFF, 0xFFDFEFFF],
    -- to X
    [0xFFBFFDFF, 0xFFBFFBFF, 0xFFBFF7FF, 0xFFBFDFFF, 0xFFBFBFFF, 0xFFBF7FFF, 0xFFBEFFFF, 0xFFBDFFFF, 0xFFBBFFFF, 0xFFBFFF7F, 0xFFBFFEFF, 0xFFBFEFFF],
    -- to Y
    [0xFF7FFDFF, 0xFF7FFBFF, 0xFF7FF7FF, 0xFF7FDFFF, 0xFF7FBFFF, 0xFF7F7FFF, 0xFF7EFFFF, 0xFF7DFFFF, 0xFF7BFFFF, 0xFF7FFF7F, 0xFF7FFEFF, 0xFF7FEFFF],
    -- to U
    [0xFEFFFDFF, 0xFEFFFBFF, 0xFEFFF7FF, 0xFEFFDFFF, 0xFEFFBFFF, 0xFEFF7FFF, 0xFEFEFFFF, 0xFEFDFFFF, 0xFEFBFFFF, 0xFEFFFF7F, 0xFEFFFEFF, 0xFEFFEFFF],
    -- to V
    [0xFDFFFDFF, 0xFDFFFBFF, 0xFDFFF7FF, 0xFDFFDFFF, 0xFDFFBFFF, 0xFDFF7FFF, 0xFDFEFFFF, 0xFDFDFFFF, 0xFDFBFFFF, 0xFDFFFF7F, 0xFDFFFEFF, 0xFDFFEFFF],
    -- to M
    [0xFBFFFDFF, 0xFBFFFBFF, 0xFBFFF7FF, 0xFBFFDFFF, 0xFBFFBFFF, 0xFBFF7FFF, 0xFBFEFFFF, 0xFBFDFFFF, 0xFBFBFFFF, 0xFBFFFF7F, 0xFBFFFEFF, 0xFBFFEFFF],
    -- to P
    [0xF7FFFDFF, 0xF7FFFBFF, 0xF7FFF7FF, 0xF7FFDFFF, 0xF7FFBFFF, 0xF7FF7FFF, 0xF7FEFFFF, 0xF7FDFFFF, 0xF7FBFFFF, 0xF7FFFF7F, 0xF7FFFEFF, 0xF7FFEFFF] ]

/-- The words of `ALU d` for the destinations A, B, D, X, Y, U, V, M, P (R214 to R230). -/
def aluRow : List ControlWord :=
  [0xFFF7EFF7, 0xFFEFEFF7, 0xFFDFEFF7, 0xFFBFEFF7, 0xFF7FEFF7, 0xFEFFEFF7, 0xFDFFEFF7, 0xFBFFEFF7, 0xF7FFEFF7]

/-- The words of `ALUC d` for the same destinations (R215 to R231). -/
def alucRow : List ControlWord :=
  [0xFFF7EFF3, 0xFFEFEFF3, 0xFFDFEFF3, 0xFFBFEFF3, 0xFF7FEFF3, 0xFEFFEFF3, 0xFDFFEFF3, 0xFBFFEFF3, 0xF7FFEFF3]

/-- The entries whose opcode's upper digit is 0, C, D or E: `NOP` and `HLT`, the compares, the jumps and `LINK` and `JALR`,
the pair instructions (R212, R213, R232 to R244). -/
def systemRow : List Entry := [.same 0xFFFFFFFF, .same 0xFFFFFFFE]
def compareRow : List Entry := [.same 0xFFFFFFF7, .same 0xFFFFFFF3]
def jumpRow : List Entry :=
  [ .same 0xFFFFFFFD,
    .byFlags 0xFFFFFFFF 0xFFFFFFFF 0xFFFFFFFD 0xFFFFFFFD,
    .byFlags 0xFFFFFFFD 0xFFFFFFFD 0xFFFFFFFF 0xFFFFFFFF,
    .byFlags 0xFFFFFFFF 0xFFFFFFFD 0xFFFFFFFF 0xFFFFFFFD,
    .byFlags 0xFFFFFFFD 0xFFFFFFFF 0xFFFFFFFD 0xFFFFFFFF,
    .same 0xFFFFFFBF,
    .same 0xFFFFFFBD ]
def pairRow : List Entry := [.same 0xFFFFFFEF, .same 0xFFFFFFDF, .same 0xFFF5FFDF, .same 0xFBFFFDDF]

/-- The entry of an opcode in the reference microcode (R208): every opcode of R209 is unprogrammed. -/
def referenceEntry (opcode : Byte) : Entry :=
  let high := opcode.toNat / 16
  let low := opcode.toNat % 16
  let unprogrammed := Entry.same defaultControlWord
  match high with
  | 0x0 => systemRow.getD low unprogrammed
  | 0xA => .same (aluRow.getD low defaultControlWord)
  | 0xB => .same (alucRow.getD low defaultControlWord)
  | 0xC => compareRow.getD low unprogrammed
  | 0xD => jumpRow.getD low unprogrammed
  | 0xE => pairRow.getD low unprogrammed
  | 0xF => unprogrammed
  | _ => .same ((moveRows.getD (high - 1) []).getD low defaultControlWord)

/-- `ROM[carryFlag<<9 | equalFlag<<8 | opcode]` of the reference microcode (R208). -/
def referenceWord (opcode : Byte) (f : Flags) : ControlWord := entryWord (referenceEntry opcode) f

/-- The layout of a microcode's control words. -/
def Microcode.layout : Microcode → Layout
  | .reference => Layout.reference
  | .image layout _ => layout

/-- The control word of an opcode under the latched flags, in any microcode. -/
def Microcode.word (m : Microcode) (opcode : Byte) (f : Flags) : ControlWord :=
  match m with
  | .reference => referenceWord opcode f
  | .image _ table => loadEntry table (decoderAddress f opcode)

/-- The reference microcode as the 1024 entries of a table. -/
def referenceTable : DecoderTable :=
  tableOfEntries fun i => referenceWord (BitVec.ofNat 8 i) { carry := Nat.testBit i 9, equal := Nat.testBit i 8 }

/-- The control-flow class of an opcode (43_trace_engine.md R176). -/
inductive FlowClass where
  | unconditional | conditional | other
deriving DecidableEq, Repr

/-- How many of an opcode's four entries assert `J` (R176). -/
def jumpCount (m : Microcode) (opcode : Byte) : Nat :=
  ([⟨false, false⟩, ⟨false, true⟩, ⟨true, false⟩, ⟨true, true⟩] : List Flags).countP
    fun f => asserted m.layout (m.word opcode f) .j

/-- The class: `J` in all four entries, in one to three, in none (R176). -/
def flowClass (m : Microcode) (opcode : Byte) : FlowClass :=
  if jumpCount m opcode = 4 then .unconditional else if jumpCount m opcode = 0 then .other else .conditional

end Sys2Proof.Machine
end

