-- ==== Sys2Proof/Machine/Interp.lean ====
section
/-! DEFINITION. `Interpreter.step()` (spec/41_pipeline_step.md R115) on the instruction in if_id. -/

namespace Sys2Proof.Machine

/-- The layout the machine's held control word is read under. -/
def State.layout (s : State) : Layout := s.params.microcode.layout

/-- The machine is halted (42_control_flow.md R163). -/
def State.isHalted (s : State) : Bool := halted s.layout s.cpu

/-- The non-halted step: under the reference microcode the instruction in if_id is decoded and executed, and an unprogrammed
opcode runs as a no-op (45_reference_microcode.md R209); under a loaded image the step runs the image's control word. -/
def runIfId (s : State) : StepOutcome :=
  match s.params.microcode with
  | .reference =>
    match decodeBytes s.cpu.ifId.opcode s.cpu.ifId.immediate with
    | .ok i => exec i s
    | .error (.unprogrammed _) => execUnprogrammed s.cpu.ifId.immediate s
  | .image layout table =>
    .next (clock layout (loadEntry table (decoderAddress s.cpu.flags s.cpu.ifId.opcode)) s.cpu.ifId.immediate s)

/-- `Interpreter.step()` (R115): inert while halted (42_control_flow.md R162). -/
def interpStep (s : State) : StepOutcome :=
  if s.isHalted then .next (inert s) else runIfId s

/-- `Interpreter.step()` with the fetch answered by the given instruction in place of the fetch delegate's
(43_trace_engine.md R184; DEDUCED, assumption 13). A halted step fetches nothing. -/
def interpStepFetching (answer : Instruction) (s : State) : StepOutcome :=
  if s.isHalted then .next (inert s)
  else andThen (runIfId s) fun s' => .next { s' with cpu := { s'.cpu with ifId := answer } }

end Sys2Proof.Machine
end

