-- ==== Sys2Proof/Machine/Trace.lean ====
section
/-! DEFINITION. The trace engine's parts (spec/43_trace_engine.md): profiler, recorder, executor. -/

namespace Sys2Proof.Machine

/-! ### Profiler -/

/-- The hotness threshold (R170). -/
def hotThreshold : Nat := 3

/-- `hit(p)` (R170): the new table, and whether the count just reached the threshold. -/
def profilerHit (t : HitTable) (p : Addr) : HitTable × Bool :=
  (setHitCount t p (hitCount t p + 1), decide (hitCount t p + 1 = hotThreshold))

/-- `isHot(p)` (R171): a query that changes nothing. -/
def isHot (t : HitTable) (p : Addr) : Bool := decide (hotThreshold ≤ hitCount t p)

/-- `reset()` (R172). -/
def profilerReset (_ : HitTable) : HitTable := []

/-! ### Recorder -/

/-- The recorder's anchor: set by the first `record` (R175, R177). -/
def Recorder.anchor (r : Recorder) : Option Addr := r.instrs.head?.map fun i => i.pc

/-- The guards the recorder puts on a just-retired instruction (R177), from its class and the state before it retired. -/
def recordedGuard (m : Microcode) (opcode : Byte) (before : ProcessorState) : List GuardKind :=
  match flowClass m opcode with
  | .unconditional => [.address before.xy]
  | .conditional => [.address before.xy, .flags before.flags]
  | .other => []

/-- `record(ins, before)` (R177). -/
def Recorder.record (m : Microcode) (r : Recorder) (ins : Instruction) (before : ProcessorState) : Recorder :=
  { instrs := r.instrs ++
      [{ opcode := ins.opcode, immediate := ins.immediate, pc := ins.pc, disassembly := none
         guard := recordedGuard m ins.opcode before, isBreakpoint := r.instrs.isEmpty }] }

/-- `finalize()` (R178): the session's trace. A session with no instructions has none, and is never finalized. -/
def Recorder.finalize (r : Recorder) : Option Trace :=
  match r.instrs with
  | [] => none
  | i :: rest => some { head := i, tail := rest }

/-! ### Snapshots -/

/-- Capture a snapshot of the processor state, where capture is on (44_tracing_vm.md R203). -/
def logSnapshot (s : State) : State := if s.params.capture then { s with log := s.log ++ [s.cpu] } else s

/-- Replace the last captured snapshot (R203). -/
def relogSnapshot (s : State) : State := if s.params.capture then { s with log := s.log.dropLast ++ [s.cpu] } else s

/-! ### Executor -/

/-- The flush on entry (R180): the steady-state latches of the trace's first instruction. -/
def flush (t : Trace) (s : State) : State :=
  { s with cpu := { s.cpu with ifId := t.head, pcIf := t.head.pc + 1, pc := t.head.pc + 2 } }

/-- `bail(e)` (R183): only pc changes. -/
def bail (e : Addr) (s : State) : State := { s with cpu := { s.cpu with pc := e } }

/-- The synthetic instruction that answers a fetch past the trace's end (R185). -/
def synthetic (a : Addr) : Instruction :=
  { opcode := 0x00, immediate := 0x00, pc := a, disassembly := none, guard := [.fail], isBreakpoint := false }

/-- The fetch of the executor's i-th step (R184), where the step asks for address `a`. -/
def replayFetch (t : Trace) (i : Nat) (a : Addr) : Instruction := t.instrs.getD (i + 1) (synthetic a)

/-- A guard that the live state fails: checks 2 to 4 of R181. -/
def guardFails (p : ProcessorState) : GuardKind → Bool
  | .fail => true
  | .address t => decide (t ≠ p.xy)
  | .flags f => decide (f ≠ p.flags)

/-- The checks before a step (R181): the state after them, in which a poll of the cancellation flag has been drawn where the
instruction is a breakpoint (R182), and whether the executor bails. Each failing check bails at the instruction's own pc. -/
def replayChecks (cancel : Nat → Bool) (s : State) : State × Bool :=
  let ins := s.cpu.ifId
  let s' := if ins.isBreakpoint then { s with cancelDraws := s.cancelDraws + 1 } else s
  (s', (ins.isBreakpoint && cancel s.cancelDraws) || ins.guard.any (guardFails s.cpu))

/-- How a replay ended (R179). -/
inductive ReplayResult where
  | bailed (at' : Addr)
  | halted
  | ceiling
deriving DecidableEq, Repr

/-- A replay's end: the state, how it ended, and how many steps it performed. -/
structure Replay where
  state : State
  result : ReplayResult
  steps : Nat

/-- The executor's loop (R188), with `fuel` steps left below the ceiling and `i` steps performed. -/
def replayLoop (cancel : Nat → Bool) (t : Trace) : Nat → Nat → State → Host.Outcome Replay Fault Refusal
  | fuel, i, s =>
    let (s1, bails) := replayChecks cancel s
    if bails then .next { state := bail s1.cpu.ifId.pc s1, result := .bailed s1.cpu.ifId.pc, steps := i }
    else
      match fuel with
      | 0 => .next { state := s1, result := .ceiling, steps := i }
      | fuel + 1 =>
        andThen (interpStepFetching (replayFetch t i s1.cpu.pcIf) s1) fun s2 =>
          let s3 := logSnapshot s2
          if s3.isHalted then .next { state := s3, result := .halted, steps := i + 1 }
          else replayLoop cancel t fuel (i + 1) s3

/-- `execute(t, s)` (R188). -/
def execute (cancel : Nat → Bool) (t : Trace) (s : State) : Host.Outcome Replay Fault Refusal :=
  replayLoop cancel t s.params.maxTraceSteps 0 (flush t s)

end Sys2Proof.Machine
end

