-- ==== Sys2Proof/Machine/Vm.lean ====
section
/-! DEFINITION. The TracingInterpretingVM's step (spec/44_tracing_vm.md R192). -/

namespace Sys2Proof.Machine

/-- `resync(e)` (R197): the latches plain interpretation holds when `e` is about to retire. It is no step. -/
def resync (e : Addr) (s : State) : State :=
  { s with cpu := { s.cpu with ifId := fetch s.params e, pcIf := e + 1, pc := e + 2 } }

/-- What the VM does after the executor returns (R196). -/
def afterReplay (r : Replay) : State :=
  match r.result with
  | .bailed e =>
    let s := resync e r.state
    if r.steps = 0 then { s with skipExec := true } else relogSnapshot s
  | .halted =>
    let s := r.state
    if s.cpu.ifId.guard.contains .fail then
      relogSnapshot { s with cpu := { s.cpu with ifId := fetch s.params s.cpu.ifId.pc } }
    else s
  | .ceiling => { r.state with lastError := some .traceStepCeiling }

/-- `replay(t)` (R196). -/
def replay (cancel : Nat → Bool) (t : Trace) (s : State) : StepOutcome :=
  andThen (execute cancel t s) fun r => .next (afterReplay r)

/-- An `Interpreter.step()` with the real delegate, and its snapshot. -/
def loggedStep (s : State) : StepOutcome := andThen (interpStep s) fun s' => .next (logSnapshot s')

/-- The backward-jump transition of an ordinary step, fed to the profiler (R201). -/
def profile (prev : ProcessorState) (s : State) : State :=
  if s.cpu.ifId.pc < prev.ifId.pc then
    let (t, hot) := profilerHit s.hits s.cpu.ifId.pc
    { s with hits := t, hotCandidate := if hot then some s.cpu.ifId.pc else s.hotCandidate }
  else s

/-- The just-retired instruction, recorded where a recording runs (R202). -/
def recordRetired (prev : ProcessorState) (s : State) : State :=
  match s.mode with
  | .idle => s
  | .recording r => { s with mode := .recording (r.record s.params.microcode prev.ifId prev) }

/-- What follows the step of `ordinary(prev)` (R200). -/
def afterOrdinary (prev : ProcessorState) (s : State) : State := recordRetired prev (profile prev s)

/-- `ordinary(prev)` (R200). -/
def ordinary (prev : ProcessorState) (s : State) : StepOutcome :=
  andThen (loggedStep s) fun s' => .next (afterOrdinary prev s')

/-- The start of every VM step (R192): the hot candidate and `skipExec` are cleared, and no error is standing. -/
def beginVmStep (s : State) : State := { s with hotCandidate := none, skipExec := false, lastError := none }

/-- What a VM step does (R192): the cases in the order they are tried. -/
inductive VmCase where
  /-- An interpreter step with the real delegate, and no more: InterpreterOnly (R193), or halted (R194). -/
  | plain
  /-- Case 2: the recording closes at its anchor. -/
  | finalize (t : Trace)
  /-- Case 3: the trace cached at this pc is replayed. -/
  | replay (t : Trace)
  /-- Case 4: a recording starts with this step. -/
  | record
  /-- Case 5: an ordinary step. -/
  | ordinary
deriving DecidableEq, Repr

/-- The choice among the Tracing cases for a core that is not halted, by the mode and the pc about to retire (R192). -/
def tracingCase (s : State) : VmCase :=
  let p := s.cpu.ifId.pc
  match s.mode with
  | .recording r => if r.anchor = some p then (match r.finalize with | some t => .finalize t | none => .ordinary) else .ordinary
  | .idle =>
    match cachedTrace s.cache p with
    | some t => if s.params.traceExecEnabled && !s.skipExec then .replay t else .ordinary
    | none => if s.hotCandidate = some p then .record else .ordinary

/-- The case a VM step takes (R192). -/
def vmCase (s : State) : VmCase :=
  if s.params.strategy = .interpreterOnly || s.isHalted then .plain else tracingCase s

/-- `vmStep()` (R192), with the draws of the cancellation flag given. -/
def vmStepWith (cancel : Nat → Bool) (s : State) : StepOutcome :=
  let s0 := beginVmStep s
  match vmCase s with
  | .plain => loggedStep s0
  | .finalize t => .next { s0 with cache := cacheInsert s0.cache t, mode := .idle }
  | .replay t => replay cancel t s0
  | .record => ordinary s0.cpu { s0 with mode := .recording { instrs := [] } }
  | .ordinary => ordinary s0.cpu s0

/-- `vmStep()` (R192). -/
def vmStep (s : State) : StepOutcome := vmStepWith Config.cancelDraw s

/-- The state with an instruction placed so that the next `vmStep()` retires it: in the if_id latch, which is where a step
takes its instruction from (10_state.md R20). A halted core is un-halted, and a trace-engine decision that would run
something else is set aside; else nothing but if_id changes. -/
def placeInstruction (s : State) (w : InstrWord) : State :=
  let ins : Instruction :=
    { opcode := opcodeField w, immediate := immediateField w, pc := s.cpu.ifId.pc
      disassembly := none, guard := [], isBreakpoint := false }
  let s1 := { s with cpu := { s.cpu with ifId := ins } }
  let s2 := if s1.isHalted then { s1 with cpu := { s1.cpu with cw := defaultControlWord } } else s1
  match vmCase s2 with
  | .finalize _ => { s2 with mode := .idle, skipExec := true }
  | .replay _ => { s2 with skipExec := true }
  | _ => s2

end Sys2Proof.Machine
end

