-- ==== Sys2Proof/Machine/Step.lean ====
section
/-! DEFINITION. One step of the machine, and the placing of an instruction for the next step. -/

namespace Sys2Proof.Machine

/-- One `vmStep()` (spec/44_tracing_vm.md R192). Under the strategy of the reset state, InterpreterOnly, it is one
`Interpreter.step()`, that is one clock tick (R193, 00_scope.md R6). -/
def step (s : State) : Host.Outcome State Fault Refusal := vmStep s

/-- The state with an instruction's word where the next step takes its instruction from: the if_id latch
(DESIGN CHOICE, assumption 12). -/
def State.withFetchWord (s : State) (nbits w : Nat) : State := placeInstruction s (tableWord nbits w)

end Sys2Proof.Machine
end

