-- ==== Sys2Proof/Machine/Control.lean ====
section
/-! DEFINITION. The host's operations on the VM (spec/44_tracing_vm.md R207, 60_exceptions.md R360 to R364): construction,
reset, the loading of images, bounded runs. They are not steps of the machine. -/

namespace Sys2Proof.Machine

/-- Four decoder-ROM banks are acceptable: equal lengths, at least 1024 entries (30_encoding.md R65). -/
def banksOk (b0 b1 b2 b3 : List Byte) : Bool :=
  decide (b0.length = b1.length) && decide (b0.length = b2.length) && decide (b0.length = b3.length)
    && decide (1024 ≤ b0.length)

/-- Entry i of a decoder-ROM image: byte i of bank k is bits [8k+7:8k] (30_encoding.md R58, R65). -/
def bankEntry (b0 b1 b2 b3 : List Byte) (i : Nat) : ControlWord :=
  b3.getD i 0xFF ++ b2.getD i 0xFF ++ b1.getD i 0xFF ++ b0.getD i 0xFF

/-- The decoder table of a decoder-ROM image, where the banks are acceptable: entries 0 to 1023 (R65). -/
def decoderFromBanks (b0 b1 b2 b3 : List Byte) : Option DecoderTable :=
  if banksOk b0 b1 b2 b3 then some (tableOfEntries (bankEntry b0 b1 b2 b3)) else none

/-- The two byte planes of a program image, where they are acceptable: equal lengths, at most 65536 entries (R66). -/
def programFromPlanes (upper lower : List Byte) : Option (Memory × Memory) :=
  if upper.length = lower.length ∧ upper.length ≤ 65536 then some (memoryFrom 0 upper, memoryFrom 0 lower) else none

/-- Reset (70_reset_and_hazards.md R374): a new VM with the same parameters, around any RAM contents. The model's own draw
counters go on, so that a new VM's draws are new ones. -/
def newVm (params : Params) (ram0 : Memory) (s : State) : State :=
  { State.construct params ram0 with periphDraws := s.periphDraws, cancelDraws := s.cancelDraws }

/-- The host's reset command. -/
def resetVm (ram0 : Memory) (s : State) : State := newVm s.params ram0 s

/-- Construct a VM from a decoder-ROM image (60_exceptions.md R364): with banks of unequal length or fewer than 1024 entries,
no VM is constructed. -/
def constructFromBanks (params : Params) (layout : Layout) (b0 b1 b2 b3 : List Byte) (ram0 : Memory) : StepOutcome :=
  match decoderFromBanks b0 b1 b2 b3 with
  | none => .fault .constructionError
  | some table => .next (State.construct { params with microcode := .image layout table } ram0)

/-- Construct a VM around a decoder table built entry by entry (10_state.md R25, 60_exceptions.md R364): with fewer than 1024
entries, no VM is constructed. -/
def constructFromEntries (params : Params) (layout : Layout) (entries : List ControlWord) (ram0 : Memory) : StepOutcome :=
  match tableOfList entries with
  | none => .fault .constructionError
  | some table => .next (State.construct { params with microcode := .image layout table } ram0)

/-- Load a decoder-ROM image (60_exceptions.md R363, 30_encoding.md R65): a new VM around the image, or a refusal that
changes nothing. -/
def loadRom (layout : Layout) (b0 b1 b2 b3 : List Byte) (ram0 : Memory) (s : State) : StepOutcome :=
  match decoderFromBanks b0 b1 b2 b3 with
  | none => .refused .loadRefused
  | some table => .next (newVm { s.params with microcode := .image layout table } ram0 s)

/-- Load a program image (60_exceptions.md R363, 30_encoding.md R66): a new VM around the image, or a refusal that changes
nothing. -/
def loadProgram (upper lower : List Byte) (ram0 : Memory) (s : State) : StepOutcome :=
  match programFromPlanes upper lower with
  | none => .refused .loadRefused
  | some planes => .next (newVm { s.params with progUpper := planes.1, progLower := planes.2 } ram0 s)

/-- What a bounded run returns (60_exceptions.md R361). -/
inductive RunResult where
  | halted
  | stepBudgetExceeded
deriving DecidableEq, Repr

/-- `run(n)` (R361): VM steps until the core is halted or n have been made. -/
def runVm : Nat → State → Host.Outcome (State × RunResult) Fault Refusal
  | n, s =>
    if s.isHalted then .next (s, .halted)
    else
      match n with
      | 0 => .next (s, .stepBudgetExceeded)
      | n + 1 => andThen (vmStep s) fun s' => runVm n s'

/-- How a run until stopped ends (R361). -/
inductive RunEnd where
  | halted
  | stopped
deriving DecidableEq, Repr

/-- `run(∞)`, "run until stopped" (R361): from `s` the run ends at `t`. VM steps are made until the core is halted, or until the
host stops the run between two of them. When the host stops is its own choice, so that this is a relation (DEDUCED,
assumption 21). A run that neither halts nor is stopped ends nowhere. -/
inductive RunsUntilStopped : State → State → RunEnd → Prop where
  | halts (s : State) : s.isHalted = true → RunsUntilStopped s s .halted
  | stops (s : State) : s.isHalted = false → RunsUntilStopped s s .stopped
  | goesOn (s u t : State) (e : RunEnd) :
      s.isHalted = false → vmStep s = .next u → RunsUntilStopped u t e → RunsUntilStopped s t e

/-- The latest published snapshot (R207): a copy of the processor state after a completed step. Where no interpreter step has
completed since (before the first step, after a bail before any replay step) it is the processor state as it stands, that of
reset or of the resynchronisation (DESIGN CHOICE, assumption 23: the spec names no snapshot there). -/
def snapshot (s : State) : ProcessorState := s.cpu

end Sys2Proof.Machine
end

