-- ==== Sys2Proof/Safety.lean ====
section
/-! DEFINITION. The terms claims are stated in: the instruction families, what a retiring instruction does as equations
over the state before it, the pipeline's steady state, architectural equality, and the invariant of the machine. -/

namespace Sys2Proof.Safety

open Sys2Proof.Machine

/-! ### Instruction families -/

/-- The instruction `MOV d, s` of a source and a destination (46_reference_moves.md; R211): 108 of the 141. -/
def movInstr : BusOutput → BusInput → Byte → Instr
  | .ao, .ai, imm => .movAA imm
  | .bo, .ai, imm => .movAB imm
  | .co, .ai, imm => .movAC imm
  | .xo, .ai, imm => .movAX imm
  | .yo, .ai, imm => .movAY imm
  | .uo, .ai, imm => .movAU imm
  | .vo, .ai, imm => .movAV imm
  | .mo, .ai, imm => .movAM imm
  | .po, .ai, imm => .movAP imm
  | .go, .ai, imm => .movAG imm
  | .ho, .ai, imm => .movAH imm
  | .eo, .ai, imm => .movAE imm
  | .ao, .bi, imm => .movBA imm
  | .bo, .bi, imm => .movBB imm
  | .co, .bi, imm => .movBC imm
  | .xo, .bi, imm => .movBX imm
  | .yo, .bi, imm => .movBY imm
  | .uo, .bi, imm => .movBU imm
  | .vo, .bi, imm => .movBV imm
  | .mo, .bi, imm => .movBM imm
  | .po, .bi, imm => .movBP imm
  | .go, .bi, imm => .movBG imm
  | .ho, .bi, imm => .movBH imm
  | .eo, .bi, imm => .movBE imm
  | .ao, .di, imm => .movDA imm
  | .bo, .di, imm => .movDB imm
  | .co, .di, imm => .movDC imm
  | .xo, .di, imm => .movDX imm
  | .yo, .di, imm => .movDY imm
  | .uo, .di, imm => .movDU imm
  | .vo, .di, imm => .movDV imm
  | .mo, .di, imm => .movDM imm
  | .po, .di, imm => .movDP imm
  | .go, .di, imm => .movDG imm
  | .ho, .di, imm => .movDH imm
  | .eo, .di, imm => .movDE imm
  | .ao, .xi, imm => .movXA imm
  | .bo, .xi, imm => .movXB imm
  | .co, .xi, imm => .movXC imm
  | .xo, .xi, imm => .movXX imm
  | .yo, .xi, imm => .movXY imm
  | .uo, .xi, imm => .movXU imm
  | .vo, .xi, imm => .movXV imm
  | .mo, .xi, imm => .movXM imm
  | .po, .xi, imm => .movXP imm
  | .go, .xi, imm => .movXG imm
  | .ho, .xi, imm => .movXH imm
  | .eo, .xi, imm => .movXE imm
  | .ao, .yi, imm => .movYA imm
  | .bo, .yi, imm => .movYB imm
  | .co, .yi, imm => .movYC imm
  | .xo, .yi, imm => .movYX imm
  | .yo, .yi, imm => .movYY imm
  | .uo, .yi, imm => .movYU imm
  | .vo, .yi, imm => .movYV imm
  | .mo, .yi, imm => .movYM imm
  | .po, .yi, imm => .movYP imm
  | .go, .yi, imm => .movYG imm
  | .ho, .yi, imm => .movYH imm
  | .eo, .yi, imm => .movYE imm
  | .ao, .ui, imm => .movUA imm
  | .bo, .ui, imm => .movUB imm
  | .co, .ui, imm => .movUC imm
  | .xo, .ui, imm => .movUX imm
  | .yo, .ui, imm => .movUY imm
  | .uo, .ui, imm => .movUU imm
  | .vo, .ui, imm => .movUV imm
  | .mo, .ui, imm => .movUM imm
  | .po, .ui, imm => .movUP imm
  | .go, .ui, imm => .movUG imm
  | .ho, .ui, imm => .movUH imm
  | .eo, .ui, imm => .movUE imm
  | .ao, .vi, imm => .movVA imm
  | .bo, .vi, imm => .movVB imm
  | .co, .vi, imm => .movVC imm
  | .xo, .vi, imm => .movVX imm
  | .yo, .vi, imm => .movVY imm
  | .uo, .vi, imm => .movVU imm
  | .vo, .vi, imm => .movVV imm
  | .mo, .vi, imm => .movVM imm
  | .po, .vi, imm => .movVP imm
  | .go, .vi, imm => .movVG imm
  | .ho, .vi, imm => .movVH imm
  | .eo, .vi, imm => .movVE imm
  | .ao, .mi, imm => .movMA imm
  | .bo, .mi, imm => .movMB imm
  | .co, .mi, imm => .movMC imm
  | .xo, .mi, imm => .movMX imm
  | .yo, .mi, imm => .movMY imm
  | .uo, .mi, imm => .movMU imm
  | .vo, .mi, imm => .movMV imm
  | .mo, .mi, imm => .movMM imm
  | .po, .mi, imm => .movMP imm
  | .go, .mi, imm => .movMG imm
  | .ho, .mi, imm => .movMH imm
  | .eo, .mi, imm => .movME imm
  | .ao, .pi, imm => .movPA imm
  | .bo, .pi, imm => .movPB imm
  | .co, .pi, imm => .movPC imm
  | .xo, .pi, imm => .movPX imm
  | .yo, .pi, imm => .movPY imm
  | .uo, .pi, imm => .movPU imm
  | .vo, .pi, imm => .movPV imm
  | .mo, .pi, imm => .movPM imm
  | .po, .pi, imm => .movPP imm
  | .go, .pi, imm => .movPG imm
  | .ho, .pi, imm => .movPH imm
  | .eo, .pi, imm => .movPE imm

/-- The instruction `ALU d` of a destination (45_reference_microcode.md R214 to R230). -/
def aluInstr : BusInput → Byte → Instr
  | .ai, imm => .aluA imm
  | .bi, imm => .aluB imm
  | .di, imm => .aluD imm
  | .xi, imm => .aluX imm
  | .yi, imm => .aluY imm
  | .ui, imm => .aluU imm
  | .vi, imm => .aluV imm
  | .mi, imm => .aluM imm
  | .pi, imm => .aluP imm

/-- The instruction `ALUC d` of a destination (45_reference_microcode.md R215 to R231). -/
def alucInstr : BusInput → Byte → Instr
  | .ai, imm => .alucA imm
  | .bi, imm => .alucB imm
  | .di, imm => .alucD imm
  | .xi, imm => .alucX imm
  | .yi, imm => .alucY imm
  | .ui, imm => .alucU imm
  | .vi, imm => .alucV imm
  | .mi, imm => .alucM imm
  | .pi, imm => .alucP imm

/-- The pseudo-instructions of the reference syntax (45_reference_microcode.md R245), each another spelling of one word. -/
inductive Pseudo where
  | li (d : BusInput) (imm : Byte)
  | add (d : BusInput)
  | inc (d : BusInput)
  | sub (d : BusInput)
  | dec (d : BusInput)
  | and (d : BusInput)
  | or (d : BusInput)
  | xor (d : BusInput)
  | not (d : BusInput)
  | cmp
deriving DecidableEq, Repr

/-- The instruction a pseudo-instruction expands to (R245). -/
def Pseudo.expand : Pseudo → Instr
  | .li d imm => movInstr .co d imm
  | .add d => aluInstr d 0x09
  | .inc d => alucInstr d 0x00
  | .sub d => alucInstr d 0x06
  | .dec d => aluInstr d 0x0F
  | .and d => aluInstr d 0x1B
  | .or d => aluInstr d 0x1E
  | .xor d => aluInstr d 0x16
  | .not d => aluInstr d 0x10
  | .cmp => .cmp 0x06

/-- The opcodes of 45_reference_microcode.md R209, as ranges of first and last. -/
def unprogrammedRanges : List (Nat × Nat) :=
  [(0x02, 0x0F), (0x1C, 0x1F), (0x2C, 0x2F), (0x3C, 0x3F), (0x4C, 0x4F), (0x5C, 0x5F), (0x6C, 0x6F), (0x7C, 0x7F),
   (0x8C, 0x8F), (0x9C, 0x9F), (0xA9, 0xAF), (0xB9, 0xBF), (0xC2, 0xCF), (0xD7, 0xDF), (0xE4, 0xFF)]

/-- An opcode is unprogrammed (R209). -/
def isUnprogrammed (opcode : Byte) : Bool :=
  unprogrammedRanges.any fun r => decide (r.1 ≤ opcode.toNat) && decide (opcode.toNat ≤ r.2)

/-! ### What a retiring instruction does, over the state before it -/

/-- The ALU's answer in a step with immediate `imm` (40_alu.md R72). -/
def stepAlu (s : State) (imm : Byte) (carryIn : Bool) : AluOut :=
  aluOf s.params.logicCarry s.cpu.a s.cpu.b imm carryIn

/-- An ALU answer has the given result, the carry of two terms and a carry input, and the equal flag of its result. -/
def AluAnswers (out : AluOut) (result t1 t2 : Byte) (cin : Bool) : Prop :=
  out.result = result ∧
  out.flags.carry = decide (t1.toNat + t2.toNat + (if cin then 0 else 1) < 256) ∧
  out.flags.equal = decide (result = 0xFF)

/-- What every non-halted step that does not jump does (45_reference_microcode.md, opening; 41_pipeline_step.md R115): C takes
the immediate, the control word is held, the ALU result and flags are rewritten, the pipeline latches and uptime advance,
and the fetch is the step's first event (events in the state: assumption 8). Nothing else of the state changes. -/
def common (s : State) (imm : Byte) (cw : ControlWord) (carryIn : Bool) : State :=
  { s with
    cpu := { s.cpu with
      c := imm, cw := cw
      aluResult := (stepAlu s imm carryIn).result, aluFlags := (stepAlu s imm carryIn).flags
      ifId := fetch s.params s.cpu.pcIf, pcIf := s.cpu.pc, pc := s.cpu.pc + 1, uptime := s.cpu.uptime + 1 }
    events := s.events ++ [.fetch s.cpu.pcIf] }

/-- The value a source of a move drives, over the state before the step (41_pipeline_step.md R129 to R140). -/
def sourceValue (s : State) (imm : Byte) : BusOutput → Byte
  | .go => s.cpu.g
  | .ho => s.cpu.h
  | .ao => s.cpu.a
  | .bo => s.cpu.b
  | .co => imm
  | .eo => (stepAlu s imm true).result
  | .xo => s.cpu.x
  | .yo => s.cpu.y
  | .uo => s.cpu.u
  | .vo => s.cpu.v
  | .mo => readByte s.ram s.cpu.uv
  | .po => peripheralAnswer s s.cpu.d

/-- The events a source of a move adds: a RAM read for M, a peripheral load for P, none for a register. -/
def sourceEvents (s : State) (imm : Byte) : BusOutput → List Event
  | .mo => [.memRead s.cpu.uv (sourceValue s imm .mo)]
  | .po => [.periphLoad s.cpu.d s.cpu.uv (sourceValue s imm .po)]
  | _ => []

/-- How many oracle answers a source of a move draws: one for P from an occupied slot. -/
def sourceDraws (s : State) (o : BusOutput) : Nat :=
  if o = .po ∧ slotOccupied s.params s.cpu.d = true then 1 else 0

/-- The seven registers among the bus inputs. -/
def isRegisterInput (d : BusInput) : Bool := decide (d ≠ .mi) && decide (d ≠ .pi)

/-- A register written; M and P are no registers and write none. -/
def writeRegister (d : BusInput) (value : Byte) (p : ProcessorState) : ProcessorState :=
  match d with
  | .ai => { p with a := value }
  | .bi => { p with b := value }
  | .di => { p with d := value }
  | .xi => { p with x := value }
  | .yi => { p with y := value }
  | .ui => { p with u := value }
  | .vi => { p with v := value }
  | .mi => p
  | .pi => p

/-- A register read; M and P are no registers, and read as 0x00 here. -/
def readRegister (d : BusInput) (p : ProcessorState) : Byte :=
  match d with
  | .ai => p.a
  | .bi => p.b
  | .di => p.d
  | .xi => p.x
  | .yi => p.y
  | .ui => p.u
  | .vi => p.v
  | .mi => 0x00
  | .pi => 0x00

/-- The link value of a step, from the values of pc and pc_if after phase 1 (42_control_flow.md R164). -/
def linkValue (rev : Rev) (pcAfter pcIfAfter : Addr) : Addr :=
  match rev with
  | .a => pcAfter
  | .b => pcIfAfter

/-- U:V as phase 2 sees it: after a `UVInc` of the same step (41_pipeline_step.md R127). -/
def phase2Uv (layout : Layout) (cw : ControlWord) (p : ProcessorState) : Addr :=
  if asserted layout cw .uvInc then p.uv + 1 else p.uv

/-- The byte on the bus in a step (41_pipeline_step.md R122). -/
def stepBus (layout : Layout) (cw : ControlWord) (imm : Byte) (s : State) : Byte :=
  busValue layout cw (beforeBus layout cw imm s)

/-! ### The pipeline -/

/-- The steady state (10_state.md R21): the latches of an instruction about to retire outside a delay slot. -/
def Steady (p : ProcessorState) : Prop := p.pcIf = p.ifId.pc + 1 ∧ p.pc = p.ifId.pc + 2

/-- A completed interpreter step that was not inert and whose control word does not assert `J`. -/
def StepsWithoutJump (s t : State) : Prop :=
  s.isHalted = false ∧ interpStep s = .next t ∧ asserted t.layout t.cpu.cw .j = false

/-- A completed interpreter step that was not inert and whose control word asserts `J`. -/
def StepsWithJump (s t : State) : Prop :=
  s.isHalted = false ∧ interpStep s = .next t ∧ asserted t.layout t.cpu.cw .j = true

/-- `k` steps of the plain interpreter. -/
def interpRun : Nat → State → StepOutcome
  | 0, s => .next s
  | k + 1, s => andThen (interpStep s) (interpRun k)

/-- `k` steps of a replay, without its checks (43_trace_engine.md R184, R188): the flush, then interpreter steps whose fetches
the trace answers. -/
def replayRun (tr : Trace) : Nat → State → StepOutcome
  | 0, s => .next (flush tr s)
  | k + 1, s => andThen (replayRun tr k s) fun s' => interpStepFetching (replayFetch tr k s'.cpu.pcIf) s'

/-! ### Architectural equality (10_state.md R30) -/

/-- Instructions equal in opcode, immediate and pc; annotations are ignored. -/
def SameInstruction (i j : Instruction) : Prop :=
  i.opcode = j.opcode ∧ i.immediate = j.immediate ∧ i.pc = j.pc

/-- States equal but for the annotations of the instruction in if_id. -/
def SameState (s t : State) : Prop :=
  SameInstruction s.cpu.ifId t.cpu.ifId ∧ t = { s with cpu := { s.cpu with ifId := t.cpu.ifId } }

/-! ### The invariant -/

/-- Every cached trace stands under its own anchor and is well formed (43_trace_engine.md R173, R174, R177). -/
def cacheOk (c : TraceCache) : Bool :=
  risingFrom 0 c && c.all fun e => decide (e.1 = e.2.anchor.toNat) && recordingOk e.2.instrs

/-- While a recording runs, it holds a well-formed recording whose anchor has no cached trace yet (44_tracing_vm.md R195,
R199). -/
def modeOk (mode : VmMode) (c : TraceCache) : Bool :=
  match mode with
  | .idle => true
  | .recording r => recordingOk r.instrs && (r.instrs.head?.all fun i => (cachedTrace c i.pc).isNone)

/-- The invariant of the machine: RAM, instruction memory and the hit table keep their canonical form, cached traces are well
formed and stand under their anchors, and a running recording is well formed and has an anchor of its own. -/
structure Inv (s : State) : Prop where
  ram : Memory.wf s.ram = true
  progUpper : Memory.wf s.params.progUpper = true
  progLower : Memory.wf s.params.progLower = true
  hits : HitTable.wf s.hits = true
  cache : cacheOk s.cache = true
  mode : modeOk s.mode s.cache = true

end Sys2Proof.Safety
end

