-- ==== Sys2Proof/Certificates/Slice0/Obligations.lean ====
section
/-! DEFINITION. The statements for the provers. -/

open Sys2Proof Sys2Proof.Machine Sys2Proof.Safety

/-! ### Encoding -/

/-- Every instruction decodes from its own word, with every immediate (30_encoding.md R54; 45_reference_microcode.md R208). -/
def Obligations.DecodeOfEncodeIsTheInstruction : Prop :=
  ∀ i : Instr, decode (encode i) = .ok i

/-- A word that decodes to an instruction is that instruction's word: no two words stand for one instruction, and every bit
of the word is in the instruction (30_encoding.md R54). -/
def Obligations.EncodeOfDecodeIsTheWord : Prop :=
  ∀ (w : InstrWord) (i : Instr), decode w = .ok i → encode i = w

/-- 45_reference_microcode.md R209: the opcodes of its list are exactly those that decode to no instruction; their control
word is 0xFFFFFFFF under all flags, and the step that retires one is the step of `NOP`. That the
decoder rejects them by name, while the step runs them, is the model's convention (DEDUCED, assumption 11). -/
def Obligations.UnprogrammedOpcodesRunAsNop : Prop :=
  (∀ opcode imm : Byte, isUnprogrammed opcode = true ↔ decodeBytes opcode imm = .error (.unprogrammed opcode)) ∧
  (∀ (opcode : Byte) (f : Flags), isUnprogrammed opcode = true →
    referenceWord opcode f = 0xFFFFFFFF ∧ ∀ sig : Signal, asserted Layout.reference 0xFFFFFFFF sig = false) ∧
  (∀ s : State, s.params.microcode = .reference → s.isHalted = false → isUnprogrammed s.cpu.ifId.opcode = true →
    interpStep s = exec (.nop s.cpu.ifId.immediate) s ∧ ∃ t, interpStep s = .next t)

/-- Words written out from the encodings of 45_reference_microcode.md and 46_reference_moves.md decode to their instructions,
and a word of an unprogrammed opcode to a rejection by name (the model's convention: DEDUCED, assumption 11). -/
def Obligations.SampleWordsDecode : Prop :=
  decode 0x0000#16 = .ok (.nop 0x00) ∧ decode 0x0100#16 = .ok (.hlt 0x00) ∧
  decode 0x1205#16 = .ok (.movAC 0x05) ∧ decode 0x4B1E#16 = .ok (.movXE 0x1E) ∧ decode 0x8A00#16 = .ok (.movMH 0x00) ∧
  decode 0x9800#16 = .ok (.movPP 0x00) ∧ decode 0xA009#16 = .ok (.aluA 0x09) ∧ decode 0xB106#16 = .ok (.alucB 0x06) ∧
  decode 0xC006#16 = .ok (.cmp 0x06) ∧ decode 0xD400#16 = .ok (.jne 0x00) ∧ decode 0xD600#16 = .ok (.jalr 0x00) ∧
  decode 0xE300#16 = .ok (.stai 0x00) ∧ decode 0xFF00#16 = .error (.unprogrammed 0xFF)

/-- 30_encoding.md R64: the raw word that asserts exactly the signals of a set, under the reference layout, and R64's four
examples. -/
def Obligations.ControlWordAssertsExactlyItsSignals : Prop :=
  (∀ (sigs : List Signal) (sig : Signal), asserted Layout.reference (controlWord sigs) sig = sigs.contains sig) ∧
  (∀ (sigs : List Signal) (k : Nat), (controlWord sigs).getLsbD k =
    (decide (k < 32) && !(sigs.any fun sig => decide ((Layout.reference.bit sig).val = k)))) ∧
  controlWord [] = 0xFFFFFFFF ∧ controlWord [.hlt] = 0xFFFFFFFE ∧ controlWord [.co, .ai] = 0xFFF7F7FF ∧
  controlWord [.j] = 0xFFFFFFFD

/-- 30_encoding.md R63: a raw bit that the layout maps to no signal has no effect. Two words that agree on every bit a signal
has make steps that differ in the held raw word alone; and the reference microcode's spare bits 28 to 31 are 1. -/
def Obligations.SpareControlBitsHaveNoEffect : Prop :=
  (∀ (layout : Layout) (cw cw' : ControlWord) (imm : Byte) (s : State),
    (∀ sig, cw.getLsbD (layout.bit sig).val = cw'.getLsbD (layout.bit sig).val) →
    clock layout cw' imm s =
      { clock layout cw imm s with cpu := { (clock layout cw imm s).cpu with cw := cw' } }) ∧
  (∀ (opcode : Byte) (f : Flags) (k : Nat), 28 ≤ k → k < 32 → (referenceWord opcode f).getLsbD k = true)

/-- A non-halted step is the step of the ROM entry at carryFlag * 512 + equalFlag * 256 + opcode (30_encoding.md R56, R67;
41_pipeline_step.md R115, R118). Under the reference microcode the entry is the raw word the instruction's rule prints, so that
each of the 141 meanings, written from the signal set its rule names, is that word's step (41_pipeline_step.md R154;
45_reference_microcode.md R208); under a loaded image it is the image's own word, read under the image's layout. And a word
stored at an address of a table is the word loaded from it, every other entry staying as it was (30_encoding.md R59). -/
def Obligations.MeaningsAreTheRomDrivenStep : Prop :=
  (∀ s : State, s.params.microcode = .reference → s.isHalted = false →
    interpStep s =
      .next (clock Layout.reference (referenceWord s.cpu.ifId.opcode s.cpu.flags) s.cpu.ifId.immediate s)) ∧
  (∀ (s : State) (layout : Layout) (table : DecoderTable) (w : ControlWord),
    s.params.microcode = .image layout table → s.isHalted = false →
    table[(if s.cpu.flags.carry then 512 else 0) + (if s.cpu.flags.equal then 256 else 0) + s.cpu.ifId.opcode.toNat]? = some w →
    interpStep s = .next (clock layout w s.cpu.ifId.immediate s)) ∧
  (∀ (f : Flags) (opcode : Byte), (decoderAddress f opcode).toNat =
    (if f.carry then 512 else 0) + (if f.equal then 256 else 0) + opcode.toNat) ∧
  (∀ (table : DecoderTable) (f g : Flags) (opcode op : Byte) (v : ControlWord),
    loadEntry (storeEntry table (decoderAddress f opcode) v) (decoderAddress f opcode) = v ∧
    ((g, op) ≠ (f, opcode) →
      loadEntry (storeEntry table (decoderAddress f opcode) v) (decoderAddress g op) = loadEntry table (decoderAddress g op)))

/-- The reference microcode loaded as an image of 1024 entries makes a machine that steps as the built-in one does, but for
the parameter that says which it is (45_reference_microcode.md R208; 30_encoding.md R56, R67). -/
def Obligations.LoadedReferenceTableStepsAlike : Prop :=
  ∀ s t : State, s.params.microcode = .reference → interpStep s = .next t →
    interpStep { s with params := { s.params with microcode := .image Layout.reference referenceTable } } =
      .next { t with params := { s.params with microcode := .image Layout.reference referenceTable } }

/-! ### The ALU -/

/-- 40_alu.md R80: the two composed slices equal the closed form on 8 bits.
The function table is the one the spec supplies from general knowledge (PRESUMED, assumption 7). -/
def Obligations.SlicesComposeToClosedForm : Prop :=
  ∀ (a b : Byte) (sel : BitVec 4) (logic cin : Bool),
    let t1 : Byte := a ||| (if sel.getLsbD 0 then b else 0) ||| (if sel.getLsbD 1 then ~~~b else 0)
    let t2 : Byte := (if sel.getLsbD 2 then a &&& ~~~b else 0) ||| (if sel.getLsbD 3 then a &&& b else 0)
    let sum : Nat := t1.toNat + t2.toNat + (if cin then 0 else 1)
    let result : Byte := if logic then ~~~t1 ^^^ t2 else BitVec.ofNat 8 sum
    aluUpdate .asArithmetic a b sel logic cin =
      { result := result, flags := { carry := !decide (256 ≤ sum), equal := decide (result = 0xFF) } }

/-- 40_alu.md R82: the six facts software uses: compare, subtract, add, increment, decrement, equality without carry.
The function table is the one the spec supplies from general knowledge (PRESUMED, assumption 7). -/
def Obligations.AluIdiomsOfSoftware : Prop :=
  ∀ a b : Byte,
    (let r := aluUpdate .asArithmetic a b 6 false true
     r.result = a - b - 1 ∧ (r.flags.equal = true ↔ a = b) ∧ (r.flags.carry = false ↔ b.toNat < a.toNat)) ∧
    (let r := aluUpdate .asArithmetic a b 6 false false
     r.result = a - b ∧ (r.flags.carry = false ↔ b.toNat ≤ a.toNat)) ∧
    (let r := aluUpdate .asArithmetic a b 9 false true
     r.result = a + b ∧ (r.flags.carry = false ↔ 256 ≤ a.toNat + b.toNat)) ∧
    (aluUpdate .asArithmetic a b 0 false false).result = a + 1 ∧
    (let r := aluUpdate .asArithmetic a b 15 false true
     r.result = a - 1 ∧ (r.flags.carry = true ↔ a = 0)) ∧
    (∀ cin : Bool, (aluUpdate .asArithmetic a b 9 true cin).flags.equal = true ↔ a = b)

/-- The logic functions S = 0 to 7 (40_alu.md R83 to R90).
The function table is the one the spec supplies from general knowledge (PRESUMED, assumption 7). -/
def Obligations.LogicFunctionsZeroToSeven : Prop :=
  ∀ (a b : Byte) (cin : Bool),
    AluAnswers (aluUpdate .asArithmetic a b 0 true cin) (~~~a) a 0 cin ∧
    AluAnswers (aluUpdate .asArithmetic a b 1 true cin) (~~~(a ||| b)) (a ||| b) 0 cin ∧
    AluAnswers (aluUpdate .asArithmetic a b 2 true cin) (~~~a &&& b) (a ||| ~~~b) 0 cin ∧
    AluAnswers (aluUpdate .asArithmetic a b 3 true cin) 0x00 0xFF 0 cin ∧
    AluAnswers (aluUpdate .asArithmetic a b 4 true cin) (~~~(a &&& b)) a (a &&& ~~~b) cin ∧
    AluAnswers (aluUpdate .asArithmetic a b 5 true cin) (~~~b) (a ||| b) (a &&& ~~~b) cin ∧
    AluAnswers (aluUpdate .asArithmetic a b 6 true cin) (a ^^^ b) (a ||| ~~~b) (a &&& ~~~b) cin ∧
    AluAnswers (aluUpdate .asArithmetic a b 7 true cin) (a &&& ~~~b) 0xFF (a &&& ~~~b) cin

/-- The logic functions S = 8 to 15 (40_alu.md R91 to R98).
The function table is the one the spec supplies from general knowledge (PRESUMED, assumption 7). -/
def Obligations.LogicFunctionsEightToFifteen : Prop :=
  ∀ (a b : Byte) (cin : Bool),
    AluAnswers (aluUpdate .asArithmetic a b 8 true cin) (~~~a ||| b) a (a &&& b) cin ∧
    AluAnswers (aluUpdate .asArithmetic a b 9 true cin) (~~~(a ^^^ b)) (a ||| b) (a &&& b) cin ∧
    AluAnswers (aluUpdate .asArithmetic a b 10 true cin) b (a ||| ~~~b) (a &&& b) cin ∧
    AluAnswers (aluUpdate .asArithmetic a b 11 true cin) (a &&& b) 0xFF (a &&& b) cin ∧
    AluAnswers (aluUpdate .asArithmetic a b 12 true cin) 0xFF a a cin ∧
    AluAnswers (aluUpdate .asArithmetic a b 13 true cin) (a ||| ~~~b) (a ||| b) a cin ∧
    AluAnswers (aluUpdate .asArithmetic a b 14 true cin) (a ||| b) (a ||| ~~~b) a cin ∧
    AluAnswers (aluUpdate .asArithmetic a b 15 true cin) a 0xFF a cin

/-- The arithmetic functions S = 0 to 7 (40_alu.md R99 to R103, R105, R106; S = 5 by the terms of R80): each result is the
function's expression plus k, where k is 1 when the carry input is 0. For S = 5 with B = 0x00 this is 2A plus k, the model's
choice between R104's terms and its corner case (DESIGN CHOICE, assumption 24).
The function table is the one the spec supplies from general knowledge (PRESUMED, assumption 7). -/
def Obligations.ArithmeticFunctionsZeroToSeven : Prop :=
  ∀ (a b : Byte) (cin : Bool),
    let k : Byte := if cin then 0 else 1
    AluAnswers (aluUpdate .asArithmetic a b 0 false cin) (a + k) a 0 cin ∧
    AluAnswers (aluUpdate .asArithmetic a b 1 false cin) ((a ||| b) + k) (a ||| b) 0 cin ∧
    AluAnswers (aluUpdate .asArithmetic a b 2 false cin) ((a ||| ~~~b) + k) (a ||| ~~~b) 0 cin ∧
    AluAnswers (aluUpdate .asArithmetic a b 3 false cin) (0xFF + k) 0xFF 0 cin ∧
    AluAnswers (aluUpdate .asArithmetic a b 4 false cin) (a + (a &&& ~~~b) + k) a (a &&& ~~~b) cin ∧
    AluAnswers (aluUpdate .asArithmetic a b 5 false cin) ((a ||| b) + (a &&& ~~~b) + k) (a ||| b) (a &&& ~~~b) cin ∧
    AluAnswers (aluUpdate .asArithmetic a b 6 false cin) (a - b - 1 + k) (a ||| ~~~b) (a &&& ~~~b) cin ∧
    AluAnswers (aluUpdate .asArithmetic a b 7 false cin) ((a &&& ~~~b) - 1 + k) 0xFF (a &&& ~~~b) cin

/-- The arithmetic functions S = 8 to 15 (40_alu.md R107, R108, R110 to R114; S = 10 by the terms of R80). For S = 10 with
B = 0xFF the result is 2A plus k, the model's choice between R109's terms and its corner case (DESIGN CHOICE, assumption 24).
The function table is the one the spec supplies from general knowledge (PRESUMED, assumption 7). -/
def Obligations.ArithmeticFunctionsEightToFifteen : Prop :=
  ∀ (a b : Byte) (cin : Bool),
    let k : Byte := if cin then 0 else 1
    AluAnswers (aluUpdate .asArithmetic a b 8 false cin) (a + (a &&& b) + k) a (a &&& b) cin ∧
    AluAnswers (aluUpdate .asArithmetic a b 9 false cin) (a + b + k) (a ||| b) (a &&& b) cin ∧
    AluAnswers (aluUpdate .asArithmetic a b 10 false cin) ((a ||| ~~~b) + (a &&& b) + k) (a ||| ~~~b) (a &&& b) cin ∧
    AluAnswers (aluUpdate .asArithmetic a b 11 false cin) ((a &&& b) - 1 + k) 0xFF (a &&& b) cin ∧
    AluAnswers (aluUpdate .asArithmetic a b 12 false cin) (a + a + k) a a cin ∧
    AluAnswers (aluUpdate .asArithmetic a b 13 false cin) ((a ||| b) + a + k) (a ||| b) a cin ∧
    AluAnswers (aluUpdate .asArithmetic a b 14 false cin) ((a ||| ~~~b) + a + k) (a ||| ~~~b) a cin ∧
    AluAnswers (aluUpdate .asArithmetic a b 15 false cin) (a - 1 + k) 0xFF a cin

/-! ### The instructions: each completes, with exactly the next state given -/

/-- `MOV d, s` for the seven register destinations and all twelve sources (46_reference_moves.md R246 to R329): the step
completes in every state; the destination takes the source's value as it stands before the step, the M source reads RAM
once, the P source makes one peripheral load; with the effects common to every step, nothing else changes: no other
register, no latched flag, no byte of RAM.
The byte of an occupied slot is a free value (DESIGN CHOICE, assumption 4). -/
def Obligations.MovToRegisterCompletes : Prop :=
  ∀ (o : BusOutput) (d : BusInput) (imm : Byte) (s : State), isRegisterInput d = true →
    let c := common s imm (controlWord [o.signal, d.signal]) true
    exec (movInstr o d imm) s =
      .next { c with
        cpu := writeRegister d (sourceValue s imm o) c.cpu
        events := c.events ++ sourceEvents s imm o
        periphDraws := s.periphDraws + sourceDraws s o } ∧
    (∀ t, exec (movInstr o d imm) s = .next t → ∀ x : Addr, readByte t.ram x = readByte s.ram x)

/-- `MOV M, s` for all twelve sources (46_reference_moves.md R330 to R341): the byte at U:V takes the source's value; every
other byte of RAM and every register but C stay.
The byte of an occupied slot is a free value (DESIGN CHOICE, assumption 4). -/
def Obligations.MovToRamCompletes : Prop :=
  ∀ (o : BusOutput) (imm : Byte) (s : State),
    let c := common s imm (controlWord [o.signal, .mi]) true
    let v := sourceValue s imm o
    exec (movInstr o .mi imm) s =
      .next { c with
        ram := writeByte s.ram s.cpu.uv v
        events := c.events ++ sourceEvents s imm o ++ [.memWrite s.cpu.uv v]
        periphDraws := s.periphDraws + sourceDraws s o } ∧
    (∀ t, exec (movInstr o .mi imm) s = .next t →
      readByte t.ram s.cpu.uv = v ∧ ∀ x : Addr, x ≠ s.cpu.uv → readByte t.ram x = readByte s.ram x)

/-- `MOV P, s` for all twelve sources (46_reference_moves.md R342 to R353): one store event to slot D at U:V, after the
source's own read; no register but C and no byte of RAM changes.
A store to an unoccupied slot is recorded like another (DESIGN CHOICE, assumption 8). -/
def Obligations.MovToPeripheralCompletes : Prop :=
  ∀ (o : BusOutput) (imm : Byte) (s : State),
    let c := common s imm (controlWord [o.signal, .pi]) true
    exec (movInstr o .pi imm) s =
      .next { c with
        events := c.events ++ sourceEvents s imm o ++ [.periphStore s.cpu.d s.cpu.uv (sourceValue s imm o)]
        periphDraws := s.periphDraws + sourceDraws s o } ∧
    (∀ t, exec (movInstr o .pi imm) s = .next t → ∀ x : Addr, readByte t.ram x = readByte s.ram x)

/-- `ALU d` and `ALUC d` for the seven register destinations (45_reference_microcode.md R214 to R227): the destination takes
the ALU's result on the old A and B, with carry input 1 for ALU and 0 for ALUC, and the latched flags take its flags. -/
def Obligations.AluToRegisterCompletes : Prop :=
  ∀ (d : BusInput) (imm : Byte) (s : State), isRegisterInput d = true →
    (let c := common s imm (controlWord [d.signal, .eo, .fi]) true
     let r := stepAlu s imm true
     exec (aluInstr d imm) s = .next { c with cpu := { writeRegister d r.result c.cpu with flags := r.flags } }) ∧
    (let c := common s imm (controlWord [.carryIn, d.signal, .eo, .fi]) false
     let r := stepAlu s imm false
     exec (alucInstr d imm) s = .next { c with cpu := { writeRegister d r.result c.cpu with flags := r.flags } }) ∧
    (∀ t, exec (aluInstr d imm) s = .next t ∨ exec (alucInstr d imm) s = .next t →
      ∀ x : Addr, readByte t.ram x = readByte s.ram x)

/-- `ALU M` and `ALUC M` (45_reference_microcode.md R228, R229): the byte of RAM at U:V takes the ALU's result, the latched
flags its flags; every other byte and every register but C stay. `ALU P` and `ALUC P` (R230, R231): one store of the ALU's
result to peripheral slot D at U:V, and the flags latched; no register but C and no byte of RAM changes. A store to an
unoccupied slot is recorded like another (DESIGN CHOICE, assumption 8). -/
def Obligations.AluToRamAndPeripheralCompletes : Prop :=
  (∀ (imm : Byte) (s : State),
      (let c := common s imm (controlWord [.mi, .eo, .fi]) true
       let r := stepAlu s imm true
       exec (.aluM imm) s =
         .next { c with
           cpu := { c.cpu with flags := r.flags }
           ram := writeByte s.ram s.cpu.uv r.result
           events := c.events ++ [.memWrite s.cpu.uv r.result] }) ∧
      (let c := common s imm (controlWord [.carryIn, .mi, .eo, .fi]) false
       let r := stepAlu s imm false
       exec (.alucM imm) s =
         .next { c with
           cpu := { c.cpu with flags := r.flags }
           ram := writeByte s.ram s.cpu.uv r.result
           events := c.events ++ [.memWrite s.cpu.uv r.result] }) ∧
      (∀ (t : State) (cin : Bool), exec (if cin then .aluM imm else .alucM imm) s = .next t →
        readByte t.ram s.cpu.uv = (stepAlu s imm cin).result ∧
        ∀ x : Addr, x ≠ s.cpu.uv → readByte t.ram x = readByte s.ram x)) ∧
  (∀ (imm : Byte) (s : State),
      (let c := common s imm (controlWord [.pi, .eo, .fi]) true
       let r := stepAlu s imm true
       exec (.aluP imm) s =
         .next { c with
           cpu := { c.cpu with flags := r.flags }
           events := c.events ++ [.periphStore s.cpu.d s.cpu.uv r.result] }) ∧
      (let c := common s imm (controlWord [.carryIn, .pi, .eo, .fi]) false
       let r := stepAlu s imm false
       exec (.alucP imm) s =
         .next { c with
           cpu := { c.cpu with flags := r.flags }
           events := c.events ++ [.periphStore s.cpu.d s.cpu.uv r.result] }) ∧
      (∀ t, exec (.aluP imm) s = .next t ∨ exec (.alucP imm) s = .next t →
        ∀ x : Addr, readByte t.ram x = readByte s.ram x))

/-- `CMP` and `CMPC` (45_reference_microcode.md R232, R233): the latched flags take the ALU's flags and no register but C
changes. `NOP` and `HLT` (R212, R213): the effects common to every step and no others; after `HLT` under the reference
microcode the machine is halted, after `NOP` it is not. -/
def Obligations.ComparesNopAndHltWriteNoRegister : Prop :=
  (∀ (imm : Byte) (s : State),
      (let c := common s imm 0xFFFFFFF7 true
       exec (.cmp imm) s = .next { c with cpu := { c.cpu with flags := (stepAlu s imm true).flags } }) ∧
      (let c := common s imm 0xFFFFFFF3 false
       exec (.cmpc imm) s = .next { c with cpu := { c.cpu with flags := (stepAlu s imm false).flags } }) ∧
      (∀ t, exec (.cmp imm) s = .next t ∨ exec (.cmpc imm) s = .next t → ∀ x : Addr, readByte t.ram x = readByte s.ram x)) ∧
  (∀ (imm : Byte) (s : State),
      exec (.nop imm) s = .next (common s imm 0xFFFFFFFF true) ∧
      exec (.hlt imm) s = .next (common s imm 0xFFFFFFFE true) ∧
      (s.params.microcode = .reference →
        (common s imm 0xFFFFFFFF true).isHalted = false ∧ (common s imm 0xFFFFFFFE true).isHalted = true) ∧
      (∀ t, exec (.nop imm) s = .next t ∨ exec (.hlt imm) s = .next t → ∀ x : Addr, readByte t.ram x = readByte s.ram x))

/-- `JMP`, `JC`, `JNC`, `JE`, `JNE` (45_reference_microcode.md R234 to R238): pc takes X:Y and the will-jump event follows the
fetch, always for `JMP` and where the latched flag has the value the others test; where it has not, the step has only the
common effects. No register but C, no flag and no byte of RAM changes. -/
def Obligations.JumpsGoToXYWhereTheirConditionHolds : Prop :=
  ∀ (imm : Byte) (s : State),
    let c := common s imm 0xFFFFFFFF true
    let taken := common s imm 0xFFFFFFFD true
    let jumped : State :=
      { taken with cpu := { taken.cpu with pc := s.cpu.xy }, events := taken.events ++ [.willJump s.cpu.xy] }
    exec (.jmp imm) s = .next jumped ∧
    exec (.jc imm) s = .next (if s.cpu.flags.carry = true then jumped else c) ∧
    exec (.jnc imm) s = .next (if s.cpu.flags.carry = false then jumped else c) ∧
    exec (.je imm) s = .next (if s.cpu.flags.equal = true then jumped else c) ∧
    exec (.jne imm) s = .next (if s.cpu.flags.equal = false then jumped else c) ∧
    (∀ t, exec (.jmp imm) s = .next t ∨ exec (.jc imm) s = .next t ∨ exec (.jnc imm) s = .next t ∨
        exec (.je imm) s = .next t ∨ exec (.jne imm) s = .next t → ∀ x : Addr, readByte t.ram x = readByte s.ram x)

/-- `LINK` and `JALR` (45_reference_microcode.md R239, R240): G:H takes pc (Revision A) or pc_if (Revision B) as they stand
after phase 1; under `JALR` pc is then already the target X:Y. -/
def Obligations.LinkAndJalrLatchTheLinkValue : Prop :=
  ∀ (imm : Byte) (s : State),
    (let c := common s imm 0xFFFFFFBF true
     let v := linkValue s.params.rev (s.cpu.pc + 1) s.cpu.pc
     exec (.link imm) s = .next { c with cpu := { c.cpu with g := highByte v, h := lowByte v } }) ∧
    (let c := common s imm 0xFFFFFFBD true
     let v := linkValue s.params.rev s.cpu.xy s.cpu.pc
     exec (.jalr imm) s =
       .next { c with
         cpu := { c.cpu with pc := s.cpu.xy, g := highByte v, h := lowByte v }
         events := c.events ++ [.willJump s.cpu.xy] }) ∧
    (∀ t, exec (.link imm) s = .next t ∨ exec (.jalr imm) s = .next t → ∀ x : Addr, readByte t.ram x = readByte s.ram x)

/-- `INXY` and `INUV` (45_reference_microcode.md R241, R242): the pair is incremented as a 16-bit value, modulo 65536. -/
def Obligations.PairInstructionsIncrementThePair : Prop :=
  ∀ (imm : Byte) (s : State),
    (let c := common s imm 0xFFFFFFEF true
     exec (.inxy imm) s =
       .next { c with cpu := { c.cpu with x := highByte (s.cpu.xy + 1), y := lowByte (s.cpu.xy + 1) } }) ∧
    (let c := common s imm 0xFFFFFFDF true
     exec (.inuv imm) s =
       .next { c with cpu := { c.cpu with u := highByte (s.cpu.uv + 1), v := lowByte (s.cpu.uv + 1) } }) ∧
    (∀ t, exec (.inxy imm) s = .next t ∨ exec (.inuv imm) s = .next t → ∀ x : Addr, readByte t.ram x = readByte s.ram x)

/-- `LDAI` and `STAI` (45_reference_microcode.md R243, R244): `LDAI` reads at U:V from before the increment, `STAI` writes at
U:V from after it; the other registers, the flags and every other byte of RAM stay. -/
def Obligations.LoadAndStoreWithIncrement : Prop :=
  ∀ (imm : Byte) (s : State),
    (let c := common s imm 0xFFF5FFDF true
     let v := readByte s.ram s.cpu.uv
     exec (.ldai imm) s =
       .next { c with
         cpu := { c.cpu with a := v, u := highByte (s.cpu.uv + 1), v := lowByte (s.cpu.uv + 1) }
         events := c.events ++ [.memRead s.cpu.uv v] }) ∧
    (∀ t, exec (.ldai imm) s = .next t → ∀ x : Addr, readByte t.ram x = readByte s.ram x) ∧
    (let c := common s imm 0xFBFFFDDF true
     exec (.stai imm) s =
       .next { c with
         cpu := { c.cpu with u := highByte (s.cpu.uv + 1), v := lowByte (s.cpu.uv + 1) }
         ram := writeByte s.ram (s.cpu.uv + 1) s.cpu.a
         events := c.events ++ [.memWrite (s.cpu.uv + 1) s.cpu.a] }) ∧
    (∀ t, exec (.stai imm) s = .next t →
      readByte t.ram (s.cpu.uv + 1) = s.cpu.a ∧
      ∀ x : Addr, x ≠ s.cpu.uv + 1 → readByte t.ram x = readByte s.ram x)

/-- The pseudo-instructions (45_reference_microcode.md R245) with a register destination: `LI` loads its immediate and leaves
the flags; `ADD`, `INC`, `SUB`, `DEC`, `AND`, `OR`, `XOR`, `NOT` put the named function of the old A and B in the destination
and latch the flags the ALU computed in the step; `CMP` latches them alone, and they compare A with B. The function table is the
one the spec supplies from general knowledge (PRESUMED, assumption 7). -/
def Obligations.PseudoInstructionsHaveTheirEffects : Prop :=
  ∀ (d : BusInput) (s : State), isRegisterInput d = true →
    let a := s.cpu.a
    let b := s.cpu.b
    let gives := fun (p : Pseudo) (v : Byte) (t : State) =>
      exec p.expand s = .next t ∧ readRegister d t.cpu = v ∧ t.cpu.flags = t.cpu.aluFlags
    (∀ imm, ∃ t, exec (Pseudo.li d imm).expand s = .next t ∧ readRegister d t.cpu = imm ∧ t.cpu.flags = s.cpu.flags) ∧
    (∃ t, gives (.add d) (a + b) t) ∧
    (∃ t, gives (.inc d) (a + 1) t) ∧
    (∃ t, gives (.sub d) (a - b) t ∧ (t.cpu.flags.carry = false ↔ b.toNat ≤ a.toNat)) ∧
    (∃ t, gives (.dec d) (a - 1) t ∧ (t.cpu.flags.carry = true ↔ a = 0)) ∧
    (∃ t, gives (.and d) (a &&& b) t) ∧
    (∃ t, gives (.or d) (a ||| b) t) ∧
    (∃ t, gives (.xor d) (a ^^^ b) t) ∧
    (∃ t, gives (.not d) (~~~a) t) ∧
    (∃ t, exec Pseudo.cmp.expand s = .next t ∧ t.cpu.flags = t.cpu.aluFlags ∧ (t.cpu.flags.equal = true ↔ a = b) ∧
      (t.cpu.flags.carry = false ↔ b.toNat < a.toNat))

/-! ### The step -/

/-- Where the bytes in the if_id latch decode to an instruction and the core is not halted, the machine's step is that
instruction's meaning: with its snapshot under InterpreterOnly, and with the profiler and the recorder around it in an
ordinary Tracing step; a replayed step is the meaning with the fetch answered by the trace (43_trace_engine.md R184),
which the model does by replacing if_id after the step (DEDUCED, assumption 13), with the fetch event of the address asked
for (DESIGN CHOICE, assumption 8). -/
def Obligations.StepRunsTheDecodedInstruction : Prop :=
  ∀ (s : State) (i : Instr), s.params.microcode = .reference → s.isHalted = false →
    decode (instrWord s.cpu.ifId.opcode s.cpu.ifId.immediate) = .ok i →
    (vmCase s = .plain → step s = andThen (exec i (beginVmStep s)) fun t => .next (logSnapshot t)) ∧
    (vmCase s = .ordinary →
      step s = andThen (exec i (beginVmStep s)) fun t => .next (afterOrdinary s.cpu (logSnapshot t))) ∧
    (vmCase s = .record →
      step s = andThen (exec i { beginVmStep s with mode := .recording { instrs := [] } }) fun t =>
        .next (afterOrdinary s.cpu (logSnapshot t))) ∧
    (∀ answer, interpStepFetching answer s =
      andThen (exec i s) fun t => .next { t with cpu := { t.cpu with ifId := answer } })

/-- No instruction, opcode, operand or address stops the machine (41_pipeline_step.md R116, 60_exceptions.md R354): every
interpreter step and every VM step, from every state, has a next state. For the VM step
this rests on the model's choice that a reported `TraceStepCeiling` is a field of the next state (DESIGN CHOICE, assumption
10), and that faults and refusals belong to the host (DEDUCED, assumption 20). -/
def Obligations.EveryStepHasANextState : Prop :=
  (∀ s : State, ∃ t, interpStep s = .next t) ∧ (∀ s : State, ∃ t, step s = .next t)

/-- 41_pipeline_step.md R128: every interpreter step adds 1 to uptime, the halted one included, and that is the only change a
halted one makes. -/
def Obligations.HaltedStepChangesUptimeAlone : Prop :=
  ∀ s t : State, interpStep s = .next t →
    t.cpu.uptime = s.cpu.uptime + 1 ∧
    (s.isHalted = true → t = { s with cpu := { s.cpu with uptime := s.cpu.uptime + 1 } })

/-- 44_tracing_vm.md R194: the VM step of a halted core is one inert step and its snapshot, under either strategy. It
finalizes, replays, records and profiles nothing. -/
def Obligations.HaltedVmStepIsInert : Prop :=
  ∀ s : State, s.isHalted = true →
    step s = .next (logSnapshot (inert (beginVmStep s))) ∧
    ∀ t, step s = .next t → t.isHalted = true

/-- What construction, and so reset, leaves, for all parameters and all RAM contents: the core's values (10_state.md R31, the
control word being 0xFFFFFFFF by 30_encoding.md R60, so that no layout asserts a signal) and the VM's (44_tracing_vm.md R190).
The empty event list, the absent error and the draw counters at 0 are the model's choices (DESIGN CHOICE, assumptions 8, 10, 4
and 5). A reset constructs a new VM around the same parameters (70_reset_and_hazards.md R374), whose draw counters go on (DESIGN
CHOICE, assumption 16). -/
def Obligations.ResetLeavesTheStatedValues : Prop :=
  (∀ (params : Params) (ram0 : Memory),
    let s := State.construct params ram0
    (s.cpu.a = 0 ∧ s.cpu.b = 0 ∧ s.cpu.c = 0 ∧ s.cpu.d = 0 ∧ s.cpu.g = 0 ∧ s.cpu.h = 0 ∧ s.cpu.x = 0 ∧ s.cpu.y = 0 ∧
      s.cpu.u = 0 ∧ s.cpu.v = 0) ∧
    s.cpu.aluResult = 0 ∧ s.cpu.aluFlags = ⟨false, false⟩ ∧ s.cpu.flags = ⟨false, false⟩ ∧ s.cpu.pc = 0 ∧ s.cpu.pcIf = 0 ∧
    s.cpu.ifId = { opcode := 0, immediate := 0, pc := 0, disassembly := none, guard := [], isBreakpoint := false } ∧
    s.cpu.cw = 0xFFFFFFFF ∧ (∀ (layout : Layout) (sig : Signal), asserted layout s.cpu.cw sig = false) ∧
    s.isHalted = false ∧ s.cpu.uptime = 0 ∧ s.ram = ram0 ∧
    s.cache = [] ∧ (∀ p, cachedTrace s.cache p = none) ∧ s.hits = [] ∧ (∀ p, hitCount s.hits p = 0) ∧ s.mode = .idle ∧
    s.hotCandidate = none ∧ s.skipExec = false ∧ s.log = [] ∧ s.params = params ∧
    s.events = [] ∧ s.lastError = none ∧ s.periphDraws = 0 ∧ s.cancelDraws = 0) ∧
  (∀ (ram0 : Memory) (s : State),
    resetVm ram0 s =
      { State.construct s.params ram0 with periphDraws := s.periphDraws, cancelDraws := s.cancelDraws })

/-- 10_state.md R21: two consecutive non-halted steps without a jump leave the pipeline in its steady state, whatever the
state before; it is not steady right after reset; and in the two steps after a jump the target is in pc, then in pc_if,
with the second delay slot in if_id. -/
def Obligations.PipelineIsSteadyAfterTwoSteps : Prop :=
  (∀ s t u : State, StepsWithoutJump s t → StepsWithoutJump t u → Steady u.cpu) ∧
  ¬ Steady State.reset.cpu ∧
  (∀ s t u : State, StepsWithJump s t → StepsWithoutJump t u →
    t.cpu.pc = s.cpu.xy ∧ u.cpu.pcIf = s.cpu.xy ∧ u.cpu.ifId.pc = s.cpu.pc)

/-- 42_control_flow.md R159: a jump from the steady state has two delay slots, and the latches evolve as its table says. -/
def Obligations.JumpsHaveTwoDelaySlots : Prop :=
  ∀ s t u w : State, Steady s.cpu → StepsWithJump s t → StepsWithoutJump t u → StepsWithoutJump u w →
    let a := s.cpu.ifId.pc
    let target := s.cpu.xy
    t.cpu.ifId = fetch s.params (a + 1) ∧ t.cpu.pcIf = a + 2 ∧ t.cpu.pc = target ∧
    u.cpu.ifId = fetch s.params (a + 2) ∧ u.cpu.pcIf = target ∧ u.cpu.pc = target + 1 ∧
    w.cpu.ifId = fetch s.params target ∧ w.cpu.pcIf = target + 1 ∧ w.cpu.pc = target + 2

/-- 42_control_flow.md R165: the link value latched by an instruction at `a` in the steady state, by revision, with and
without a jump, under any control word that asserts `LinkIn`. -/
def Obligations.LinkValueInTheSteadyState : Prop :=
  ∀ (layout : Layout) (cw : ControlWord) (imm : Byte) (s : State), Steady s.cpu → asserted layout cw .linkIn = true →
    let t := clock layout cw imm s
    let a := s.cpu.ifId.pc
    (asserted layout cw .j = false → t.cpu.gh = match s.params.rev with | .a => a + 3 | .b => a + 2) ∧
    (asserted layout cw .j = true → t.cpu.gh = match s.params.rev with | .a => s.cpu.xy | .b => a + 2)

/-- 41_pipeline_step.md R124: the pair increment on two bytes equals the 16-bit increment modulo 65536; the low byte is
incremented modulo 256 and the high byte only when the low byte wraps. -/
def Obligations.PairIncrementIsSixteenBit : Prop :=
  (∀ h l : Byte, pairOf (pairInc h l).1 (pairInc h l).2 = pairOf h l + 1) ∧
  (∀ h l : Byte, (pairInc h l).2 = l + 1 ∧ (l ≠ 0xFF → (pairInc h l).1 = h) ∧ (l = 0xFF → (pairInc h l).1 = h + 1)) ∧
  (∀ (layout : Layout) (cw : ControlWord) (imm : Byte) (s : State),
    (asserted layout cw .xyInc = true → asserted layout cw .xi = false → asserted layout cw .yi = false →
      (clock layout cw imm s).cpu.xy = s.cpu.xy + 1) ∧
    (asserted layout cw .uvInc = true → asserted layout cw .ui = false → asserted layout cw .vi = false →
      (clock layout cw imm s).cpu.uv = s.cpu.uv + 1))

/-- 41_pipeline_step.md R122, 30_encoding.md R69: of the outputs in the order GO, HO, AO, BO, CO, EO, XO, YO, UO, VO, MO, PO the
last asserted one wins, and with none asserted the bus is 0x00. The bus has the winner's value as it stands before the step,
which for CO is the immediate just latched and for EO the ALU's result of this step, with the carry input the word selects. -/
def Obligations.LastAssertedOutputWins : Prop :=
  (∀ (layout : Layout) (cw : ControlWord) (before after : List BusOutput) (o : BusOutput),
    [BusOutput.go, .ho, .ao, .bo, .co, .eo, .xo, .yo, .uo, .vo, .mo, .po] = before ++ o :: after →
    asserted layout cw o.signal = true → (∀ o' ∈ after, asserted layout cw o'.signal = false) →
    winner layout cw = some o) ∧
  (∀ (layout : Layout) (cw : ControlWord) (imm : Byte) (s : State), (∀ o : BusOutput, asserted layout cw o.signal = false) →
    winner layout cw = none ∧ stepBus layout cw imm s = 0x00 ∧
    (asserted layout cw .ai = true → (clock layout cw imm s).cpu.a = 0x00)) ∧
  (∀ (layout : Layout) (cw : ControlWord) (imm : Byte) (s : State) (o : BusOutput), winner layout cw = some o →
    asserted layout cw o.signal = true ∧
    stepBus layout cw imm s =
      if o = .eo then (stepAlu s imm (!asserted layout cw .carryIn)).result else sourceValue s imm o)

/-- 20_memory.md R38: RAM is written only where `MI` is asserted, at U:V as it stands at the start of phase 2, with the bus
value of phase 1; every other byte stays. -/
def Obligations.RamIsWrittenByMemoryInAlone : Prop :=
  ∀ (layout : Layout) (cw : ControlWord) (imm : Byte) (s : State),
    let t := clock layout cw imm s
    (asserted layout cw .mi = true →
      t.ram = writeByte s.ram (phase2Uv layout cw s.cpu) (stepBus layout cw imm s) ∧
      readByte t.ram (phase2Uv layout cw s.cpu) = stepBus layout cw imm s ∧
      ∀ x, x ≠ phase2Uv layout cw s.cpu → readByte t.ram x = readByte s.ram x) ∧
    (asserted layout cw .mi = false → t.ram = s.ram)

/-- The latched flags change through `FI` alone, which latches the flags the ALU computed in the same step (10_state.md R23,
41_pipeline_step.md R150), in every interpreter step of every microcode. -/
def Obligations.LatchedFlagsChangeThroughFlagsInAlone : Prop :=
  ∀ s t : State, s.isHalted = false → interpStep s = .next t →
    (asserted t.layout t.cpu.cw .fi = true → t.cpu.flags = t.cpu.aluFlags) ∧
    (asserted t.layout t.cpu.cw .fi = false → t.cpu.flags = s.cpu.flags) ∧
    (∃ cin : Bool, cin = !asserted t.layout t.cpu.cw .carryIn ∧
      t.cpu.aluResult = (stepAlu s s.cpu.ifId.immediate cin).result ∧
      t.cpu.aluFlags = (stepAlu s s.cpu.ifId.immediate cin).flags)

/-- Which signal writes which register, in every non-halted interpreter step (10_state.md R17, R18): C takes the executing
instruction's immediate; each other register keeps its value unless a signal that R17 names for it is asserted; each asserted
bus input takes the one byte on the bus (30_encoding.md R69; 41_pipeline_step.md R125, R141 to R147); a latch overrides a pair
increment of the same step, and the other register of the pair has its incremented value (R126); and `LinkIn` takes no byte of
the bus but pc or pc_if after phase 1. -/
def Obligations.RegistersChangeThroughTheirSignalsAlone : Prop :=
  ∀ s t : State, s.isHalted = false → interpStep s = .next t →
    let off := fun sig => asserted t.layout t.cpu.cw sig = false
    let on := fun sig => asserted t.layout t.cpu.cw sig = true
    let bus := stepBus t.layout t.cpu.cw s.cpu.ifId.immediate s
    (t.cpu.c = s.cpu.ifId.immediate ∧
      (off .ai → t.cpu.a = s.cpu.a) ∧ (off .bi → t.cpu.b = s.cpu.b) ∧ (off .di → t.cpu.d = s.cpu.d) ∧
      (off .linkIn → t.cpu.g = s.cpu.g ∧ t.cpu.h = s.cpu.h) ∧
      (off .xi → off .xyInc → t.cpu.x = s.cpu.x) ∧ (off .yi → off .xyInc → t.cpu.y = s.cpu.y) ∧
      (off .ui → off .uvInc → t.cpu.u = s.cpu.u) ∧ (off .vi → off .uvInc → t.cpu.v = s.cpu.v)) ∧
    ((on .ai → t.cpu.a = bus) ∧ (on .bi → t.cpu.b = bus) ∧ (on .di → t.cpu.d = bus) ∧
      (on .xi → t.cpu.x = bus) ∧ (on .yi → t.cpu.y = bus) ∧ (on .ui → t.cpu.u = bus) ∧ (on .vi → t.cpu.v = bus) ∧
      (on .linkIn → t.cpu.gh = linkValue s.params.rev t.cpu.pc t.cpu.pcIf)) ∧
    ((on .xyInc → off .xi → t.cpu.x = highByte (s.cpu.xy + 1)) ∧ (on .xyInc → off .yi → t.cpu.y = lowByte (s.cpu.xy + 1)) ∧
      (on .uvInc → off .ui → t.cpu.u = highByte (s.cpu.uv + 1)) ∧ (on .uvInc → off .vi → t.cpu.v = lowByte (s.cpu.uv + 1)))

/-- 41_pipeline_step.md R117: the events of one step, in order: the fetch, at most one read, at most one will-jump, at most
one RAM write, at most one peripheral store.
The list of events in the state, and the event of an unoccupied slot, are the model's (DESIGN CHOICE, assumption 8). -/
def Obligations.StepEventsComeInOrder : Prop :=
  ∀ (layout : Layout) (cw : ControlWord) (imm : Byte) (s : State),
    let t := clock layout cw imm s
    let on := fun sig => asserted layout cw sig
    let bus := stepBus layout cw imm s
    t.events = s.events ++ [.fetch s.cpu.pcIf]
      ++ (if on .po then [.periphLoad s.cpu.d s.cpu.uv bus] else if on .mo then [.memRead s.cpu.uv bus] else [])
      ++ (if on .j then [.willJump s.cpu.xy] else [])
      ++ (if on .mi then [.memWrite (phase2Uv layout cw s.cpu) bus] else [])
      ++ (if on .pi then [.periphStore s.cpu.d (phase2Uv layout cw s.cpu) bus] else [])

/-- 30_encoding.md R60: the step of the default control word is the no-op: it changes C, cw, the pipeline latches, the ALU
result and flags and uptime, under any layout. -/
def Obligations.DefaultControlWordIsTheNoOp : Prop :=
  ∀ (layout : Layout) (imm : Byte) (s : State),
    clock layout 0xFFFFFFFF imm s = common s imm 0xFFFFFFFF true ∧ stepBus layout 0xFFFFFFFF imm s = 0x00

/-- The parameters, instruction memory and the decoder table among them, never change (20_memory.md R35, R52; 44_tracing_vm.md
R191): not in a step of the interpreter, not in a step of the machine. -/
def Obligations.NoStepChangesAParameter : Prop :=
  (∀ s t : State, interpStep s = .next t → t.params = s.params) ∧ (∀ s t : State, step s = .next t → t.params = s.params)

/-! ### The invariant -/

/-- Every step of the machine keeps the invariant: canonical memories and hit table, well-formed cached traces under their
anchors, a well-formed recording with an anchor of its own. -/
def Obligations.EveryStepKeepsTheInvariant : Prop :=
  ∀ s t : State, Inv s → step s = .next t → Inv t

/-- The invariant holds at reset. -/
def Obligations.ResetMeetsTheInvariant : Prop := Inv State.reset

/-- A cached trace is never removed nor changed (43_trace_engine.md R174). -/
def Obligations.CachedTracesNeverChange : Prop :=
  ∀ s t : State, Inv s → step s = .next t →
    ∀ (p : Addr) (tr : Trace), cachedTrace s.cache p = some tr → cachedTrace t.cache p = some tr

/-! ### The trace engine -/

/-- The profiler (43_trace_engine.md R170, R171, R172): `hit` adds 1 to one count and answers true exactly when the new count
is 3; `isHot` is whether the count is at least 3; `reset` makes every count 0. -/
def Obligations.ProfilerCountsHits : Prop :=
  (∀ (t : HitTable) (p q : Addr),
    hitCount (profilerHit t p).1 p = hitCount t p + 1 ∧ (q ≠ p → hitCount (profilerHit t p).1 q = hitCount t q) ∧
    ((profilerHit t p).2 = true ↔ hitCount t p + 1 = 3)) ∧
  (∀ (t : HitTable) (p : Addr), isHot t p = true ↔ 3 ≤ hitCount t p) ∧
  (∀ (t : HitTable) (p : Addr), hitCount (profilerReset t) p = 0)

/-- The control-flow classes of the reference microcode (43_trace_engine.md R176; 95_test_vectors.md 2.11): JMP and JALR are
unconditional, JC, JNC, JE and JNE conditional, every other opcode neither. -/
def Obligations.FlowClassesOfTheReferenceMicrocode : Prop :=
  ∀ opcode : Byte,
    (flowClass .reference opcode = .unconditional ↔ opcode = 0xD0 ∨ opcode = 0xD6) ∧
    (flowClass .reference opcode = .conditional ↔ 0xD1 ≤ opcode.toNat ∧ opcode.toNat ≤ 0xD4)

/-- `record` (43_trace_engine.md R177): the instruction is appended with the guards of its class, evaluated in the state
before it retired, and is a breakpoint exactly when it is the first; the anchor is the first one's pc.
The model writes the guard set as a list in a fixed order and gives no disassembly text (DESIGN CHOICE, assumptions 14 and
15). -/
def Obligations.RecorderGuardsByClass : Prop :=
  ∀ (m : Microcode) (r : Recorder) (ins : Instruction) (before : ProcessorState),
    ∃ g : List GuardKind,
      (flowClass m ins.opcode = .unconditional → g = [.address before.xy]) ∧
      (flowClass m ins.opcode = .conditional → g = [.address before.xy, .flags before.flags]) ∧
      (flowClass m ins.opcode = .other → g = []) ∧
      (r.record m ins before).instrs = r.instrs ++
        [{ opcode := ins.opcode, immediate := ins.immediate, pc := ins.pc, disassembly := none, guard := g
           isBreakpoint := r.instrs.isEmpty }] ∧
      (r.instrs = [] → (r.record m ins before).anchor = some ins.pc) ∧
      (r.instrs ≠ [] → (r.record m ins before).anchor = r.anchor)

/-- The checks before a replayed step (43_trace_engine.md R181, R182): the executor bails exactly where the instruction is a
breakpoint and the poll finds the cancellation flag set, or a guard is `Fail`, or an address guard differs from X:Y, or a
flags guard from the latched flags; a poll is drawn exactly at a breakpoint, and nothing else changes. -/
def Obligations.ReplayBailsExactlyOnAFailedCheck : Prop :=
  ∀ (cancel : Nat → Bool) (s : State),
    let ins := s.cpu.ifId
    ((replayChecks cancel s).2 = true ↔
      (ins.isBreakpoint = true ∧ cancel s.cancelDraws = true) ∨ GuardKind.fail ∈ ins.guard ∨
      (∃ a, GuardKind.address a ∈ ins.guard ∧ a ≠ s.cpu.xy) ∨
      (∃ f, GuardKind.flags f ∈ ins.guard ∧ f ≠ s.cpu.flags)) ∧
    (ins.isBreakpoint = true → (replayChecks cancel s).1 = { s with cancelDraws := s.cancelDraws + 1 }) ∧
    (ins.isBreakpoint = false → (replayChecks cancel s).1 = s)

/-- The latch writes of the trace engine (43_trace_engine.md R180, R183; 44_tracing_vm.md R197): the flush and the
resynchronisation put the pipeline in the steady state of their instruction, the bail sets pc alone; no other field of the
state changes, uptime included. In the steady state a resynchronisation changes annotations alone. -/
def Obligations.TraceEngineWritesOnlyLatches : Prop :=
  (∀ (t : Trace) (s : State),
    flush t s = { s with cpu := { s.cpu with ifId := t.head, pcIf := t.head.pc + 1, pc := t.head.pc + 2 } } ∧
    Steady (flush t s).cpu) ∧
  (∀ (e : Addr) (s : State), bail e s = { s with cpu := { s.cpu with pc := e } }) ∧
  (∀ (e : Addr) (s : State),
    resync e s = { s with cpu := { s.cpu with ifId := fetch s.params e, pcIf := e + 1, pc := e + 2 } } ∧
    Steady (resync e s).cpu) ∧
  (∀ s : State, Steady s.cpu → SameInstruction s.cpu.ifId (fetch s.params s.cpu.ifId.pc) →
    SameState s (resync s.cpu.ifId.pc s))

/-- A step reads only an instruction's opcode, immediate and pc (43_trace_engine.md R168): annotations in if_id change
nothing of the next state of a non-halted step. And a replayed step differs from the interpreter's in if_id alone, and
not architecturally where the trace answers the instruction that stands in instruction memory (44_tracing_vm.md R205).
The second clause rests on the model's way of answering a replayed fetch (DEDUCED, assumption 13) and on the fetch event
holding the address asked for (DESIGN CHOICE, assumption 8). -/
def Obligations.AnnotationsChangeNoStep : Prop :=
  (∀ s s' t : State, SameState s s' → s.isHalted = false → interpStep s = .next t → interpStep s' = .next t) ∧
  (∀ (answer : Instruction) (s t u : State), s.isHalted = false → interpStep s = .next t →
    interpStepFetching answer s = .next u →
    u = { t with cpu := { t.cpu with ifId := answer } } ∧
    (SameInstruction answer (fetch s.params s.cpu.pcIf) → SameState t u))

/-- A replay performs at most as many steps as its trace has instructions, and at most `MAX_TRACE_STEPS`: past the trace's
end the synthetic instruction makes it bail (43_trace_engine.md R184, R185, R187). Its steps are interpreter steps: uptime
grows by their number (R179, R188). -/
def Obligations.ReplayIsBoundedByItsTrace : Prop :=
  ∀ (cancel : Nat → Bool) (t : Trace) (s : State),
    (∃ r, execute cancel t s = .next r) ∧
    ∀ r, execute cancel t s = .next r →
      r.steps ≤ t.instrs.length ∧ r.steps ≤ s.params.maxTraceSteps ∧ r.state.cpu.uptime = s.cpu.uptime + r.steps

/-- Replay equals interpretation (43_trace_engine.md R189; 44_tracing_vm.md R205): let a VM step replay a trace from a steady
pipeline whose if_id holds the word of instruction memory at its pc, let the trace answer, at every performed step, the
instruction the fetch delegate would have given, and let the plain interpreter's state after as many steps be steady or
halted. Then the VM step leaves the core (annotations apart), RAM, the events and the peripheral draws as those interpreter
steps do, whatever the cancellation polls find. That the fetch events agree too is the model's convention: a replayed
fetch records pc_if and a refetch of the resynchronisation records none (DESIGN CHOICE, assumption 8). The premise on the
end of the replay stands for what R204's premises are for (DEDUCED, assumption 22). -/
def Obligations.ReplayEqualsInterpretation : Prop :=
  ∀ (s : State) (tr : Trace) (r : Replay) (u : State),
    vmCase s = .replay tr → execute Config.cancelDraw tr (beginVmStep s) = .next r → interpRun r.steps s = .next u →
    Steady s.cpu → SameInstruction s.cpu.ifId (fetch s.params s.cpu.ifId.pc) → SameInstruction tr.head s.cpu.ifId →
    (∀ (k : Nat) (v : State), k < r.steps → k + 1 < tr.instrs.length → interpRun k s = .next v →
      SameInstruction (tr.instrs.getD (k + 1) tr.head) (fetch s.params v.cpu.pcIf)) →
    (Steady u.cpu ∨ u.isHalted = true) →
    ∃ t, step s = .next t ∧ SameInstruction t.cpu.ifId u.cpu.ifId ∧ t.cpu = { u.cpu with ifId := t.cpu.ifId } ∧
      t.ram = u.ram ∧ t.events = u.events ∧ t.periphDraws = u.periphDraws

/-- 44_tracing_vm.md R195: a recording closes at its anchor in a VM step that performs no interpreter step: the trace is
cached, the mode is Idle, and the core, RAM, the events and the log stay. -/
def Obligations.FinalizingTakesNoInterpreterStep : Prop :=
  ∀ (s : State) (i : Instruction) (rest : List Instruction), s.params.strategy = .tracing → s.isHalted = false →
    s.mode = .recording { instrs := i :: rest } → s.cpu.ifId.pc = i.pc →
    ∃ t, step s = .next t ∧ t.cpu = s.cpu ∧ t.ram = s.ram ∧ t.events = s.events ∧ t.log = s.log ∧ t.mode = .idle ∧
      cachedTrace t.cache i.pc = some { head := i, tail := rest } ∧
      ∀ p, p ≠ i.pc → cachedTrace t.cache p = cachedTrace s.cache p

/-- The profiler and the recorder around a VM step (44_tracing_vm.md R199, R200, R201, R202): a step of cases 4 and 5 whose new
pc lies below the previous one counts one hit of the new pc, and sets it as the hot candidate where the count just reached 3; any
other step of theirs counts none and leaves no hot candidate. Case 4 is taken exactly in Tracing, not halted, Idle, with no
trace cached at the pc and that pc the hot candidate; it starts a recording with the anchor as its first instruction. A step
of case 5 records where a recording runs. No other VM step counts a hit, sets a hot candidate or starts a recording. -/
def Obligations.OrdinaryStepsFeedProfilerAndRecorder : Prop :=
  (∀ s t : State, vmCase s = .ordinary ∨ vmCase s = .record → step s = .next t →
    let old := s.cpu.ifId.pc
    let new := t.cpu.ifId.pc
    (new.toNat < old.toNat →
      hitCount t.hits new = hitCount s.hits new + 1 ∧ (∀ q, q ≠ new → hitCount t.hits q = hitCount s.hits q) ∧
      t.hotCandidate = if hitCount s.hits new + 1 = 3 then some new else none) ∧
    (old.toNat ≤ new.toNat → t.hits = s.hits ∧ t.hotCandidate = none) ∧
    t.cache = s.cache) ∧
  (∀ s : State, vmCase s = .record ↔
    s.params.strategy = .tracing ∧ s.isHalted = false ∧ s.mode = .idle ∧ cachedTrace s.cache s.cpu.ifId.pc = none ∧
    s.hotCandidate = some s.cpu.ifId.pc) ∧
  (∀ s t : State, vmCase s = .record → step s = .next t → ∃ r : Recorder,
    t.mode = .recording r ∧ r.anchor = some s.cpu.ifId.pc ∧
    r = Recorder.record s.params.microcode { instrs := [] } s.cpu.ifId s.cpu) ∧
  (∀ s t : State, vmCase s = .ordinary → step s = .next t →
    (s.mode = .idle → t.mode = .idle) ∧
    (∀ r, s.mode = .recording r → t.mode = .recording (r.record s.params.microcode s.cpu.ifId s.cpu))) ∧
  (∀ s t : State, vmCase s ≠ .ordinary → vmCase s ≠ .record → step s = .next t →
    t.hits = s.hits ∧ t.hotCandidate = none ∧ (t.mode = s.mode ∨ t.mode = .idle))

/-- The snapshot log of a VM step (44_tracing_vm.md R203): with capture on, one snapshot after an interpreter step, of the state
it left; none where a recording closes; one after each step of a replay, each of the state that step left, but for the last,
which holds the state after the resynchronisation or the fresh fetch where R196 makes one. With capture off the log stays. The
count of performed steps stands for the log's length (DEDUCED, assumption 9). -/
def Obligations.EveryPerformedStepIsLogged : Prop :=
  ∀ s t : State, step s = .next t →
    (s.params.capture = false → t.log = s.log) ∧
    (s.params.capture = true →
      ((∃ tr, vmCase s = .finalize tr) → t.log = s.log) ∧
      ((∀ tr, vmCase s ≠ .finalize tr) → (∀ tr, vmCase s ≠ .replay tr) → t.log = s.log ++ [t.cpu]) ∧
      (∀ (tr : Trace) (r : Replay), vmCase s = .replay tr → execute Config.cancelDraw tr (beginVmStep s) = .next r →
        ∃ l : List ProcessorState, t.log = s.log ++ l ∧ l.length = r.steps ∧ (l ≠ [] → l.getLast? = some t.cpu) ∧
          ∀ (k : Nat) (v : State), k + 1 < r.steps → replayRun tr (k + 1) s = .next v → l[k]? = some v.cpu))

/-- A VM step that does not replay: one that closes a recording performs no interpreter step and leaves the core, RAM, the events
and the draws as they were (44_tracing_vm.md R195); every other one performs exactly one interpreter step, and leaves the core,
RAM, the events and the peripheral draws as that step makes them, with no poll of the cancellation flag (R193, R194, R199,
R200). -/
def Obligations.NonReplayStepsAreInterpreterSteps : Prop :=
  ∀ s t : State, (∀ tr, vmCase s ≠ .replay tr) → step s = .next t →
    ((∃ tr, vmCase s = .finalize tr) →
      t.cpu = s.cpu ∧ t.ram = s.ram ∧ t.events = s.events ∧ t.periphDraws = s.periphDraws ∧ t.cancelDraws = s.cancelDraws) ∧
    ((∀ tr, vmCase s ≠ .finalize tr) →
      ∃ u, interpStep s = .next u ∧ t.cpu = u.cpu ∧ t.ram = u.ram ∧ t.events = u.events ∧ t.periphDraws = u.periphDraws ∧
        t.cancelDraws = s.cancelDraws)

/-- 44_tracing_vm.md R198: a replay that bails before its first step, which is where the checks of the trace's first instruction
fail, sets skipExec; no other VM step does; and while skipExec stands, the next VM step does not replay. The count of performed
steps stands for the log's length (DEDUCED, assumption 9). -/
def Obligations.ReplayIsNotRepeatedWithoutProgress : Prop :=
  (∀ (s : State) (tr : Trace) (r : Replay) (e : Addr), vmCase s = .replay tr →
    execute Config.cancelDraw tr (beginVmStep s) = .next r → r.result = .bailed e → r.steps = 0 →
    ∃ t, step s = .next t ∧ t.skipExec = true) ∧
  (∀ (s : State) (tr : Trace), vmCase s = .replay tr →
    (replayChecks Config.cancelDraw (flush tr (beginVmStep s))).2 = true →
    ∃ t, step s = .next t ∧ t.skipExec = true ∧ t.cpu.ifId = fetch s.params tr.anchor) ∧
  (∀ s t : State, step s = .next t → t.skipExec = true →
    (∃ tr, vmCase s = .replay tr) ∧ t.cpu.uptime = s.cpu.uptime) ∧
  (∀ (s : State) (tr : Trace), s.skipExec = true → vmCase s ≠ .replay tr)

/-- 60_exceptions.md R361: a bounded run makes VM steps until the core is halted or n have been made, and its answer says
which. A run until stopped ends, halted or stopped by the host, exactly where some bounded run ends, halted or with its budget
spent. A halted core makes no call, and a reported ceiling does not end the run (DEDUCED, assumption 21; DESIGN CHOICE,
assumption 10). -/
def Obligations.BoundedRunStopsAtHaltOrBudget : Prop :=
  (∀ (n : Nat) (s : State), ∃ (t : State) (r : RunResult), runVm n s = .next (t, r) ∧
    (r = .halted ↔ t.isHalted = true) ∧
    ∃ k, k ≤ n ∧ Host.Core.run Sys2Proof.core k s = .next t ∧ (r = .stepBudgetExceeded → k = n) ∧
      ∀ j, j < k → ∃ u, Host.Core.run Sys2Proof.core j s = .next u ∧ u.isHalted = false) ∧
  (∀ s t : State, RunsUntilStopped s t .halted ↔ ∃ n, runVm n s = .next (t, .halted)) ∧
  (∀ s t : State, RunsUntilStopped s t .stopped ↔ ∃ n, runVm n s = .next (t, .stepBudgetExceeded))

/-- Loading a decoder-ROM image (30_encoding.md R65): where the four files are of equal length with at least 1024 entries, the
load gives a new VM around a table whose entry i has byte i of file k in bits [8k+7:8k]; else it is refused
(60_exceptions.md R363), and construction from such files is the construction error (R364), as it is from fewer than 1024
entries given one by one. Loading a program image (30_encoding.md R66): where the two files are of equal length with at most
65536 entries, the load gives a new VM around the program, which has the files' bytes at every address of the image and
(0x00, 0x00) beyond it; else it is refused. In a new VM (44_tracing_vm.md R207) the other parameters stay, and the model's draw
counters go on (DESIGN CHOICE, assumption 16). -/
def Obligations.LoadsAreRefusedOrWhole : Prop :=
  (∀ (params : Params) (layout : Layout) (b0 b1 b2 b3 : List Byte) (ram0 : Memory) (s : State),
    let valid := b0.length = b1.length ∧ b0.length = b2.length ∧ b0.length = b3.length ∧ 1024 ≤ b0.length
    (¬ valid → loadRom layout b0 b1 b2 b3 ram0 s = .refused .loadRefused ∧
      constructFromBanks params layout b0 b1 b2 b3 ram0 = .fault .constructionError) ∧
    (valid → ∃ table : DecoderTable,
      (∀ a : BitVec 10,
        b0[a.toNat]? = some ((loadEntry table a).extractLsb' 0 8) ∧ b1[a.toNat]? = some ((loadEntry table a).extractLsb' 8 8) ∧
        b2[a.toNat]? = some ((loadEntry table a).extractLsb' 16 8) ∧
        b3[a.toNat]? = some ((loadEntry table a).extractLsb' 24 8)) ∧
      constructFromBanks params layout b0 b1 b2 b3 ram0 =
        .next (State.construct { params with microcode := .image layout table } ram0) ∧
      loadRom layout b0 b1 b2 b3 ram0 s =
        .next { State.construct { s.params with microcode := .image layout table } ram0 with
          periphDraws := s.periphDraws, cancelDraws := s.cancelDraws })) ∧
  (∀ (params : Params) (layout : Layout) (entries : List ControlWord) (ram0 : Memory),
    (entries.length < 1024 → constructFromEntries params layout entries ram0 = .fault .constructionError) ∧
    (1024 ≤ entries.length → ∃ table : DecoderTable, (∀ a : BitVec 10, entries[a.toNat]? = some (loadEntry table a)) ∧
      constructFromEntries params layout entries ram0 =
        .next (State.construct { params with microcode := .image layout table } ram0))) ∧
  (∀ (upper lower : List Byte) (ram0 : Memory) (s : State),
    (upper.length ≠ lower.length ∨ 65536 < upper.length → loadProgram upper lower ram0 s = .refused .loadRefused) ∧
    (upper.length = lower.length → upper.length ≤ 65536 → ∃ up low : Memory,
      loadProgram upper lower ram0 s =
        .next { State.construct { s.params with progUpper := up, progLower := low } ram0 with
          periphDraws := s.periphDraws, cancelDraws := s.cancelDraws } ∧
      Memory.wf up = true ∧ Memory.wf low = true ∧
      ∀ a : Addr, fetch { s.params with progUpper := up, progLower := low } a =
        { opcode := upper.getD a.toNat 0x00, immediate := lower.getD a.toNat 0x00, pc := a
          disassembly := none, guard := [], isBreakpoint := false }))

/-- Reading and writing bytes of memory (20_memory.md R36, R37, R38, R49): a read gives the last byte written to its address;
a write keeps the canonical form; and canonical memories that read alike everywhere are equal. -/
def Obligations.MemoryReadsTheLastWrite : Prop :=
  (∀ (m : Memory) (a : Addr) (v : Byte), readByte (writeByte m a v) a = v) ∧
  (∀ (m : Memory) (a x : Addr) (v : Byte), x ≠ a → readByte (writeByte m a v) x = readByte m x) ∧
  (∀ (m : Memory) (a : Addr) (v : Byte), Memory.wf m = true → Memory.wf (writeByte m a v) = true) ∧
  (∀ m m' : Memory, Memory.wf m = true → Memory.wf m' = true → (∀ a, readByte m a = readByte m' a) → m = m')
end

