-- ==== Sys2Proof/Laws/Memory.lean ====
section
/-! SUPPORT. Lists of (key, value) pairs in canonical form: what a read gives after a change, and that every change keeps the
form. Then the memories, the hit table and the trace cache. -/

namespace Sys2Proof.Machine

section
variable {α : Type}

@[simp] theorem lookup_nil (q : Nat) : lookup q ([] : List (Nat × α)) = none := rfl

theorem lookup_cons (q k : Nat) (v : α) (l : List (Nat × α)) :
    lookup q ((k, v) :: l) = if k = q then some v else lookup q l := rfl

theorem lookup_eraseKey_self (k : Nat) (l : List (Nat × α)) : lookup k (eraseKey k l) = none := by
  induction l with
  | nil => rfl
  | cons e l ih =>
    by_cases h : e.1 = k
    · simpa [eraseKey, h] using ih
    · simpa [eraseKey, h, lookup] using ih

theorem lookup_eraseKey_of_ne {q k : Nat} (h : q ≠ k) (l : List (Nat × α)) : lookup q (eraseKey k l) = lookup q l := by
  induction l with
  | nil => rfl
  | cons e l ih =>
    obtain ⟨j, v⟩ := e
    by_cases hk : j = k
    · subst hk
      rw [lookup_cons, if_neg (Ne.symm h), ← ih]
      simp [eraseKey]
    · have : eraseKey k ((j, v) :: l) = (j, v) :: eraseKey k l := by simp [eraseKey, hk]
      rw [this, lookup_cons, lookup_cons, ih]

theorem lookup_insertKey (q k : Nat) (v : α) (l : List (Nat × α)) (h : lookup k l = none) :
    lookup q (insertKey k v l) = if k = q then some v else lookup q l := by
  induction l with
  | nil => rfl
  | cons e l ih =>
    obtain ⟨j, w⟩ := e
    have he : j ≠ k := fun hh => by simp [lookup, hh] at h
    have hl : lookup k l = none := by simpa [lookup, he] using h
    by_cases hlt : k < j
    · simp [insertKey, hlt, lookup]
    · have : insertKey k v ((j, w) :: l) = (j, w) :: insertKey k v l := by simp [insertKey, hlt]
      rw [this, lookup_cons, lookup_cons, ih hl]
      by_cases hq : j = q
      · have : k ≠ q := fun hh => he (hq.trans hh.symm)
        simp [hq, this]
      · simp [hq]

theorem lookup_setKey (q k : Nat) (v : α) (l : List (Nat × α)) :
    lookup q (setKey k v l) = if k = q then some v else lookup q l := by
  rw [setKey, lookup_insertKey _ _ _ _ (lookup_eraseKey_self k l)]
  split
  · rfl
  · rename_i h; exact lookup_eraseKey_of_ne (Ne.symm h) l

/-- What a read gives after a key is put: its new value, and every other key's old one. -/
theorem lookup_putKey [DecidableEq α] (d : α) (q k : Nat) (v : α) (l : List (Nat × α)) :
    (lookup q (putKey d k v l)).getD d = if k = q then v else (lookup q l).getD d := by
  unfold putKey
  split
  · rename_i h
    split
    · rename_i hq; subst hq; simp [lookup_eraseKey_self, h]
    · rename_i hq; rw [lookup_eraseKey_of_ne (Ne.symm hq)]
  · rw [lookup_setKey]; split <;> rfl

theorem risingFrom_mono {low low' : Nat} (h : low' ≤ low) (l : List (Nat × α)) (hl : risingFrom low l = true) :
    risingFrom low' l = true := by
  cases l with
  | nil => rfl
  | cons e l =>
    simp only [risingFrom, Bool.and_eq_true, decide_eq_true_eq] at hl ⊢
    exact ⟨h.trans hl.1, hl.2⟩

/-- In a rising list every key is at least the bound. -/
theorem risingFrom_le {low : Nat} {l : List (Nat × α)} (h : risingFrom low l = true) {e : Nat × α} (he : e ∈ l) :
    low ≤ e.1 := by
  induction l generalizing low with
  | nil => simp at he
  | cons x l ih =>
    simp only [risingFrom, Bool.and_eq_true, decide_eq_true_eq] at h
    rcases List.mem_cons.mp he with rfl | hm
    · exact h.1
    · have := ih h.2 hm; omega

/-- A key below the bound is not listed. -/
theorem lookup_eq_none_of_lt {low q : Nat} {l : List (Nat × α)} (h : risingFrom low l = true) (hq : q < low) :
    lookup q l = none := by
  induction l generalizing low with
  | nil => rfl
  | cons x l ih =>
    simp only [risingFrom, Bool.and_eq_true, decide_eq_true_eq] at h
    have : x.1 ≠ q := by omega
    simp only [lookup, this, if_false]
    exact ih h.2 (by omega)

theorem risingFrom_eraseKey {low : Nat} (k : Nat) (l : List (Nat × α)) (h : risingFrom low l = true) :
    risingFrom low (eraseKey k l) = true := by
  induction l generalizing low with
  | nil => rfl
  | cons x l ih =>
    simp only [risingFrom, Bool.and_eq_true, decide_eq_true_eq] at h
    by_cases hk : x.1 = k
    · simpa [eraseKey, hk] using risingFrom_mono (by omega) _ (ih h.2)
    · simpa [eraseKey, hk, risingFrom, h.1] using ih h.2

theorem risingFrom_insertKey {low : Nat} (k : Nat) (v : α) (l : List (Nat × α)) (hk : low ≤ k)
    (hn : ∀ e ∈ l, e.1 ≠ k) (h : risingFrom low l = true) : risingFrom low (insertKey k v l) = true := by
  induction l generalizing low with
  | nil => simp [insertKey, risingFrom, hk]
  | cons x l ih =>
    simp only [risingFrom, Bool.and_eq_true, decide_eq_true_eq] at h
    by_cases hlt : k < x.1
    · simp [insertKey, hlt, risingFrom, hk, h.2]
    · have hx : x.1 ≠ k := hn x (by simp)
      simp only [insertKey, hlt, if_false, risingFrom, Bool.and_eq_true, decide_eq_true_eq]
      exact ⟨h.1, ih (by omega) (fun e he => hn e (by simp [he])) h.2⟩

theorem mem_insertKey {k : Nat} {v : α} {l : List (Nat × α)} {e : Nat × α} :
    e ∈ insertKey k v l ↔ e = (k, v) ∨ e ∈ l := by
  induction l with
  | nil => simp [insertKey]
  | cons x l ih =>
    by_cases hlt : k < x.1
    · simp [insertKey, hlt]
    · simp only [insertKey, hlt, if_false, List.mem_cons, ih]; tauto

theorem mem_eraseKey {k : Nat} {l : List (Nat × α)} {e : Nat × α} : e ∈ eraseKey k l ↔ e ∈ l ∧ e.1 ≠ k := by
  simp [eraseKey]

theorem mem_setKey {k : Nat} {v : α} {l : List (Nat × α)} {e : Nat × α} :
    e ∈ setKey k v l ↔ e = (k, v) ∨ (e ∈ l ∧ e.1 ≠ k) := by
  simp [setKey, mem_insertKey, mem_eraseKey]

theorem risingFrom_setKey (k : Nat) (v : α) (l : List (Nat × α)) (h : risingFrom 0 l = true) :
    risingFrom 0 (setKey k v l) = true :=
  risingFrom_insertKey k v _ (Nat.zero_le k) (fun _ he => (mem_eraseKey.mp he).2) (risingFrom_eraseKey k l h)

theorem risingFrom_putKey [DecidableEq α] (d : α) (k : Nat) (v : α) (l : List (Nat × α)) (h : risingFrom 0 l = true) :
    risingFrom 0 (putKey d k v l) = true := by
  unfold putKey; split
  · exact risingFrom_eraseKey k l h
  · exact risingFrom_setKey k v l h

/-- An entry after a key is put is the new entry, which is no default, or an old entry. -/
theorem mem_putKey [DecidableEq α] {d : α} {k : Nat} {v : α} {l : List (Nat × α)} {e : Nat × α}
    (he : e ∈ putKey d k v l) : (e = (k, v) ∧ v ≠ d) ∨ e ∈ l := by
  unfold putKey at he
  split at he
  · exact .inr (mem_eraseKey.mp he).1
  · rename_i hv
    rcases mem_setKey.mp he with h | h
    · exact .inl ⟨h, hv⟩
    · exact .inr h.1

end

/-! ### Memories -/

/-- What one byte reads as after a write. -/
theorem readByte_writeByte (m : Memory) (a x : Addr) (v : Byte) :
    readByte (writeByte m a v) x = if x = a then v else readByte m x := by
  rw [readByte, writeByte, lookup_putKey]
  by_cases h : x = a
  · simp [h]
  · have : a.toNat ≠ x.toNat := fun hh => h (BitVec.eq_of_toNat_eq hh.symm)
    simp [h, this, readByte]

/-- A write keeps the canonical form. -/
theorem Memory.wf_writeByte (m : Memory) (a : Addr) (v : Byte) (h : Memory.wf m = true) :
    Memory.wf (writeByte m a v) = true := by
  simp only [Memory.wf, Bool.and_eq_true, List.all_eq_true, decide_eq_true_eq] at h ⊢
  refine ⟨risingFrom_putKey _ _ _ _ h.1, fun e he => ?_⟩
  rcases mem_putKey he with ⟨rfl, hv⟩ | hm
  · exact ⟨a.isLt, hv⟩
  · exact h.2 e hm

theorem risingFrom_memoryFrom (a : Nat) (l : List Byte) : risingFrom a (memoryFrom a l) = true := by
  induction l generalizing a with
  | nil => rfl
  | cons v l ih =>
    simp only [memoryFrom]
    split
    · exact risingFrom_mono (Nat.le_succ a) _ (ih (a + 1))
    · simpa [risingFrom] using ih (a + 1)

theorem mem_memoryFrom {a : Nat} {l : List Byte} {e : Host.Cell} (he : e ∈ memoryFrom a l) :
    a ≤ e.1 ∧ e.1 < a + l.length ∧ e.2 ≠ unlistedByte := by
  induction l generalizing a with
  | nil => simp [memoryFrom] at he
  | cons v l ih =>
    rw [List.length_cons]
    simp only [memoryFrom] at he
    split at he
    · obtain ⟨h1, h2, h3⟩ := ih he
      exact ⟨by omega, by omega, h3⟩
    · rename_i hv
      rcases List.mem_cons.mp he with rfl | hm
      · exact ⟨le_refl _, by simp only; omega, hv⟩
      · obtain ⟨h1, h2, h3⟩ := ih hm
        exact ⟨by omega, by omega, h3⟩

/-- The byte planes of an image are in canonical form. -/
theorem Memory.wf_memoryFrom (l : List Byte) (h : l.length ≤ 65536) : Memory.wf (memoryFrom 0 l) = true := by
  simp only [Memory.wf, Bool.and_eq_true, List.all_eq_true, decide_eq_true_eq]
  refine ⟨risingFrom_memoryFrom 0 l, fun e he => ?_⟩
  have := mem_memoryFrom he
  exact ⟨by omega, this.2.2⟩

/-- An image's byte plane answers its bytes, and 0x00 beyond them. -/
theorem lookup_memoryFrom (l : List Byte) (a q : Nat) (h : a ≤ q) :
    (lookup q (memoryFrom a l)).getD unlistedByte = l.getD (q - a) unlistedByte := by
  induction l generalizing a with
  | nil => simp [memoryFrom]
  | cons v l ih =>
    simp only [memoryFrom]
    by_cases hq : a = q
    · subst hq
      split
      · rename_i hv
        rw [lookup_eq_none_of_lt (risingFrom_memoryFrom (a + 1) l) (Nat.lt_succ_self a)]; simp [hv]
      · simp [lookup]
    · have hd : q - a = (q - (a + 1)) + 1 := by omega
      have := ih (a + 1) (by omega)
      split
      · rw [this, hd]; simp
      · simp only [lookup, hq, if_false]; rw [this, hd]; simp

/-- Reset's memories have the canonical form. -/
theorem Memory.wf_reset : Memory.wf State.reset.ram = true ∧ Memory.wf State.reset.params.progUpper = true ∧
    Memory.wf State.reset.params.progLower = true := ⟨rfl, rfl, rfl⟩

/-! ### The hit table and the trace cache -/

theorem hitCount_setHitCount (t : HitTable) (p q : Addr) (n : Nat) :
    hitCount (setHitCount t p n) q = if q = p then n else hitCount t q := by
  rw [hitCount, setHitCount, lookup_putKey]
  by_cases h : q = p
  · simp [h]
  · have : p.toNat ≠ q.toNat := fun hh => h (BitVec.eq_of_toNat_eq hh.symm)
    simp [h, this, hitCount]

theorem HitTable.wf_setHitCount (t : HitTable) (p : Addr) (n : Nat) (h : HitTable.wf t = true) :
    HitTable.wf (setHitCount t p n) = true := by
  simp only [HitTable.wf, Bool.and_eq_true, List.all_eq_true, decide_eq_true_eq] at h ⊢
  refine ⟨risingFrom_putKey _ _ _ _ h.1, fun e he => ?_⟩
  rcases mem_putKey he with ⟨rfl, hv⟩ | hm
  · exact ⟨p.isLt, hv⟩
  · exact h.2 e hm

theorem cachedTrace_cacheInsert (c : TraceCache) (t : Trace) (p : Addr) :
    cachedTrace (cacheInsert c t) p = if p = t.anchor then some t else cachedTrace c p := by
  rw [cachedTrace, cacheInsert, lookup_setKey]
  by_cases h : p = t.anchor
  · simp [h]
  · have : t.anchor.toNat ≠ p.toNat := fun hh => h (BitVec.eq_of_toNat_eq hh.symm)
    simp [h, this, cachedTrace]

end Sys2Proof.Machine
end

