-- ==== Sys2Proof/Laws/State.lean ====
section
/-! SUPPORT. What each update of the state leaves in each field: one lemma per field per update, true by definition. Generated
in one order: the update's name, then the field's. -/

namespace Sys2Proof.Machine

/-! ### emit -/

@[simp] theorem emit_ram (e : Event) (s : State) : (emit e s).ram = s.ram := rfl
@[simp] theorem emit_mode (e : Event) (s : State) : (emit e s).mode = s.mode := rfl
@[simp] theorem emit_cache (e : Event) (s : State) : (emit e s).cache = s.cache := rfl
@[simp] theorem emit_hits (e : Event) (s : State) : (emit e s).hits = s.hits := rfl
@[simp] theorem emit_hotCandidate (e : Event) (s : State) : (emit e s).hotCandidate = s.hotCandidate := rfl
@[simp] theorem emit_skipExec (e : Event) (s : State) : (emit e s).skipExec = s.skipExec := rfl
@[simp] theorem emit_log (e : Event) (s : State) : (emit e s).log = s.log := rfl
@[simp] theorem emit_params (e : Event) (s : State) : (emit e s).params = s.params := rfl
@[simp] theorem emit_events (e : Event) (s : State) : (emit e s).events = s.events ++ [e] := rfl
@[simp] theorem emit_lastError (e : Event) (s : State) : (emit e s).lastError = s.lastError := rfl
@[simp] theorem emit_periphDraws (e : Event) (s : State) : (emit e s).periphDraws = s.periphDraws := rfl
@[simp] theorem emit_cancelDraws (e : Event) (s : State) : (emit e s).cancelDraws = s.cancelDraws := rfl
@[simp] theorem emit_cpu (e : Event) (s : State) : (emit e s).cpu = s.cpu := rfl

/-! ### latchControl -/

@[simp] theorem latchControl_ram (cw : ControlWord) (imm : Byte) (s : State) : (latchControl cw imm s).ram = s.ram := rfl
@[simp] theorem latchControl_mode (cw : ControlWord) (imm : Byte) (s : State) : (latchControl cw imm s).mode = s.mode := rfl
@[simp] theorem latchControl_cache (cw : ControlWord) (imm : Byte) (s : State) : (latchControl cw imm s).cache = s.cache := rfl
@[simp] theorem latchControl_hits (cw : ControlWord) (imm : Byte) (s : State) : (latchControl cw imm s).hits = s.hits := rfl
@[simp] theorem latchControl_hotCandidate (cw : ControlWord) (imm : Byte) (s : State) : (latchControl cw imm s).hotCandidate = s.hotCandidate := rfl
@[simp] theorem latchControl_skipExec (cw : ControlWord) (imm : Byte) (s : State) : (latchControl cw imm s).skipExec = s.skipExec := rfl
@[simp] theorem latchControl_log (cw : ControlWord) (imm : Byte) (s : State) : (latchControl cw imm s).log = s.log := rfl
@[simp] theorem latchControl_params (cw : ControlWord) (imm : Byte) (s : State) : (latchControl cw imm s).params = s.params := rfl
@[simp] theorem latchControl_events (cw : ControlWord) (imm : Byte) (s : State) : (latchControl cw imm s).events = s.events := rfl
@[simp] theorem latchControl_lastError (cw : ControlWord) (imm : Byte) (s : State) : (latchControl cw imm s).lastError = s.lastError := rfl
@[simp] theorem latchControl_periphDraws (cw : ControlWord) (imm : Byte) (s : State) : (latchControl cw imm s).periphDraws = s.periphDraws := rfl
@[simp] theorem latchControl_cancelDraws (cw : ControlWord) (imm : Byte) (s : State) : (latchControl cw imm s).cancelDraws = s.cancelDraws := rfl
@[simp] theorem latchControl_cpu_a (cw : ControlWord) (imm : Byte) (s : State) : (latchControl cw imm s).cpu.a = s.cpu.a := rfl
@[simp] theorem latchControl_cpu_b (cw : ControlWord) (imm : Byte) (s : State) : (latchControl cw imm s).cpu.b = s.cpu.b := rfl
@[simp] theorem latchControl_cpu_c (cw : ControlWord) (imm : Byte) (s : State) : (latchControl cw imm s).cpu.c = imm := rfl
@[simp] theorem latchControl_cpu_d (cw : ControlWord) (imm : Byte) (s : State) : (latchControl cw imm s).cpu.d = s.cpu.d := rfl
@[simp] theorem latchControl_cpu_g (cw : ControlWord) (imm : Byte) (s : State) : (latchControl cw imm s).cpu.g = s.cpu.g := rfl
@[simp] theorem latchControl_cpu_h (cw : ControlWord) (imm : Byte) (s : State) : (latchControl cw imm s).cpu.h = s.cpu.h := rfl
@[simp] theorem latchControl_cpu_x (cw : ControlWord) (imm : Byte) (s : State) : (latchControl cw imm s).cpu.x = s.cpu.x := rfl
@[simp] theorem latchControl_cpu_y (cw : ControlWord) (imm : Byte) (s : State) : (latchControl cw imm s).cpu.y = s.cpu.y := rfl
@[simp] theorem latchControl_cpu_u (cw : ControlWord) (imm : Byte) (s : State) : (latchControl cw imm s).cpu.u = s.cpu.u := rfl
@[simp] theorem latchControl_cpu_v (cw : ControlWord) (imm : Byte) (s : State) : (latchControl cw imm s).cpu.v = s.cpu.v := rfl
@[simp] theorem latchControl_cpu_aluResult (cw : ControlWord) (imm : Byte) (s : State) : (latchControl cw imm s).cpu.aluResult = s.cpu.aluResult := rfl
@[simp] theorem latchControl_cpu_aluFlags (cw : ControlWord) (imm : Byte) (s : State) : (latchControl cw imm s).cpu.aluFlags = s.cpu.aluFlags := rfl
@[simp] theorem latchControl_cpu_flags (cw : ControlWord) (imm : Byte) (s : State) : (latchControl cw imm s).cpu.flags = s.cpu.flags := rfl
@[simp] theorem latchControl_cpu_pc (cw : ControlWord) (imm : Byte) (s : State) : (latchControl cw imm s).cpu.pc = s.cpu.pc := rfl
@[simp] theorem latchControl_cpu_pcIf (cw : ControlWord) (imm : Byte) (s : State) : (latchControl cw imm s).cpu.pcIf = s.cpu.pcIf := rfl
@[simp] theorem latchControl_cpu_ifId (cw : ControlWord) (imm : Byte) (s : State) : (latchControl cw imm s).cpu.ifId = s.cpu.ifId := rfl
@[simp] theorem latchControl_cpu_cw (cw : ControlWord) (imm : Byte) (s : State) : (latchControl cw imm s).cpu.cw = cw := rfl
@[simp] theorem latchControl_cpu_uptime (cw : ControlWord) (imm : Byte) (s : State) : (latchControl cw imm s).cpu.uptime = s.cpu.uptime := rfl

/-! ### fetchNext -/

@[simp] theorem fetchNext_ram (s : State) : (fetchNext s).ram = s.ram := rfl
@[simp] theorem fetchNext_mode (s : State) : (fetchNext s).mode = s.mode := rfl
@[simp] theorem fetchNext_cache (s : State) : (fetchNext s).cache = s.cache := rfl
@[simp] theorem fetchNext_hits (s : State) : (fetchNext s).hits = s.hits := rfl
@[simp] theorem fetchNext_hotCandidate (s : State) : (fetchNext s).hotCandidate = s.hotCandidate := rfl
@[simp] theorem fetchNext_skipExec (s : State) : (fetchNext s).skipExec = s.skipExec := rfl
@[simp] theorem fetchNext_log (s : State) : (fetchNext s).log = s.log := rfl
@[simp] theorem fetchNext_params (s : State) : (fetchNext s).params = s.params := rfl
@[simp] theorem fetchNext_events (s : State) : (fetchNext s).events = s.events ++ [.fetch s.cpu.pcIf] := rfl
@[simp] theorem fetchNext_lastError (s : State) : (fetchNext s).lastError = s.lastError := rfl
@[simp] theorem fetchNext_periphDraws (s : State) : (fetchNext s).periphDraws = s.periphDraws := rfl
@[simp] theorem fetchNext_cancelDraws (s : State) : (fetchNext s).cancelDraws = s.cancelDraws := rfl
@[simp] theorem fetchNext_cpu_a (s : State) : (fetchNext s).cpu.a = s.cpu.a := rfl
@[simp] theorem fetchNext_cpu_b (s : State) : (fetchNext s).cpu.b = s.cpu.b := rfl
@[simp] theorem fetchNext_cpu_c (s : State) : (fetchNext s).cpu.c = s.cpu.c := rfl
@[simp] theorem fetchNext_cpu_d (s : State) : (fetchNext s).cpu.d = s.cpu.d := rfl
@[simp] theorem fetchNext_cpu_g (s : State) : (fetchNext s).cpu.g = s.cpu.g := rfl
@[simp] theorem fetchNext_cpu_h (s : State) : (fetchNext s).cpu.h = s.cpu.h := rfl
@[simp] theorem fetchNext_cpu_x (s : State) : (fetchNext s).cpu.x = s.cpu.x := rfl
@[simp] theorem fetchNext_cpu_y (s : State) : (fetchNext s).cpu.y = s.cpu.y := rfl
@[simp] theorem fetchNext_cpu_u (s : State) : (fetchNext s).cpu.u = s.cpu.u := rfl
@[simp] theorem fetchNext_cpu_v (s : State) : (fetchNext s).cpu.v = s.cpu.v := rfl
@[simp] theorem fetchNext_cpu_aluResult (s : State) : (fetchNext s).cpu.aluResult = s.cpu.aluResult := rfl
@[simp] theorem fetchNext_cpu_aluFlags (s : State) : (fetchNext s).cpu.aluFlags = s.cpu.aluFlags := rfl
@[simp] theorem fetchNext_cpu_flags (s : State) : (fetchNext s).cpu.flags = s.cpu.flags := rfl
@[simp] theorem fetchNext_cpu_pc (s : State) : (fetchNext s).cpu.pc = s.cpu.pc := rfl
@[simp] theorem fetchNext_cpu_pcIf (s : State) : (fetchNext s).cpu.pcIf = s.cpu.pcIf := rfl
@[simp] theorem fetchNext_cpu_ifId (s : State) : (fetchNext s).cpu.ifId = fetch s.params s.cpu.pcIf := rfl
@[simp] theorem fetchNext_cpu_cw (s : State) : (fetchNext s).cpu.cw = s.cpu.cw := rfl
@[simp] theorem fetchNext_cpu_uptime (s : State) : (fetchNext s).cpu.uptime = s.cpu.uptime := rfl

/-! ### snapshotPc -/

@[simp] theorem snapshotPc_ram (s : State) : (snapshotPc s).ram = s.ram := rfl
@[simp] theorem snapshotPc_mode (s : State) : (snapshotPc s).mode = s.mode := rfl
@[simp] theorem snapshotPc_cache (s : State) : (snapshotPc s).cache = s.cache := rfl
@[simp] theorem snapshotPc_hits (s : State) : (snapshotPc s).hits = s.hits := rfl
@[simp] theorem snapshotPc_hotCandidate (s : State) : (snapshotPc s).hotCandidate = s.hotCandidate := rfl
@[simp] theorem snapshotPc_skipExec (s : State) : (snapshotPc s).skipExec = s.skipExec := rfl
@[simp] theorem snapshotPc_log (s : State) : (snapshotPc s).log = s.log := rfl
@[simp] theorem snapshotPc_params (s : State) : (snapshotPc s).params = s.params := rfl
@[simp] theorem snapshotPc_events (s : State) : (snapshotPc s).events = s.events := rfl
@[simp] theorem snapshotPc_lastError (s : State) : (snapshotPc s).lastError = s.lastError := rfl
@[simp] theorem snapshotPc_periphDraws (s : State) : (snapshotPc s).periphDraws = s.periphDraws := rfl
@[simp] theorem snapshotPc_cancelDraws (s : State) : (snapshotPc s).cancelDraws = s.cancelDraws := rfl
@[simp] theorem snapshotPc_cpu_a (s : State) : (snapshotPc s).cpu.a = s.cpu.a := rfl
@[simp] theorem snapshotPc_cpu_b (s : State) : (snapshotPc s).cpu.b = s.cpu.b := rfl
@[simp] theorem snapshotPc_cpu_c (s : State) : (snapshotPc s).cpu.c = s.cpu.c := rfl
@[simp] theorem snapshotPc_cpu_d (s : State) : (snapshotPc s).cpu.d = s.cpu.d := rfl
@[simp] theorem snapshotPc_cpu_g (s : State) : (snapshotPc s).cpu.g = s.cpu.g := rfl
@[simp] theorem snapshotPc_cpu_h (s : State) : (snapshotPc s).cpu.h = s.cpu.h := rfl
@[simp] theorem snapshotPc_cpu_x (s : State) : (snapshotPc s).cpu.x = s.cpu.x := rfl
@[simp] theorem snapshotPc_cpu_y (s : State) : (snapshotPc s).cpu.y = s.cpu.y := rfl
@[simp] theorem snapshotPc_cpu_u (s : State) : (snapshotPc s).cpu.u = s.cpu.u := rfl
@[simp] theorem snapshotPc_cpu_v (s : State) : (snapshotPc s).cpu.v = s.cpu.v := rfl
@[simp] theorem snapshotPc_cpu_aluResult (s : State) : (snapshotPc s).cpu.aluResult = s.cpu.aluResult := rfl
@[simp] theorem snapshotPc_cpu_aluFlags (s : State) : (snapshotPc s).cpu.aluFlags = s.cpu.aluFlags := rfl
@[simp] theorem snapshotPc_cpu_flags (s : State) : (snapshotPc s).cpu.flags = s.cpu.flags := rfl
@[simp] theorem snapshotPc_cpu_pc (s : State) : (snapshotPc s).cpu.pc = s.cpu.pc := rfl
@[simp] theorem snapshotPc_cpu_pcIf (s : State) : (snapshotPc s).cpu.pcIf = s.cpu.pc := rfl
@[simp] theorem snapshotPc_cpu_ifId (s : State) : (snapshotPc s).cpu.ifId = s.cpu.ifId := rfl
@[simp] theorem snapshotPc_cpu_cw (s : State) : (snapshotPc s).cpu.cw = s.cpu.cw := rfl
@[simp] theorem snapshotPc_cpu_uptime (s : State) : (snapshotPc s).cpu.uptime = s.cpu.uptime := rfl

/-! ### evaluateAlu -/

@[simp] theorem evaluateAlu_ram (k : Bool) (s : State) : (evaluateAlu k s).ram = s.ram := rfl
@[simp] theorem evaluateAlu_mode (k : Bool) (s : State) : (evaluateAlu k s).mode = s.mode := rfl
@[simp] theorem evaluateAlu_cache (k : Bool) (s : State) : (evaluateAlu k s).cache = s.cache := rfl
@[simp] theorem evaluateAlu_hits (k : Bool) (s : State) : (evaluateAlu k s).hits = s.hits := rfl
@[simp] theorem evaluateAlu_hotCandidate (k : Bool) (s : State) : (evaluateAlu k s).hotCandidate = s.hotCandidate := rfl
@[simp] theorem evaluateAlu_skipExec (k : Bool) (s : State) : (evaluateAlu k s).skipExec = s.skipExec := rfl
@[simp] theorem evaluateAlu_log (k : Bool) (s : State) : (evaluateAlu k s).log = s.log := rfl
@[simp] theorem evaluateAlu_params (k : Bool) (s : State) : (evaluateAlu k s).params = s.params := rfl
@[simp] theorem evaluateAlu_events (k : Bool) (s : State) : (evaluateAlu k s).events = s.events := rfl
@[simp] theorem evaluateAlu_lastError (k : Bool) (s : State) : (evaluateAlu k s).lastError = s.lastError := rfl
@[simp] theorem evaluateAlu_periphDraws (k : Bool) (s : State) : (evaluateAlu k s).periphDraws = s.periphDraws := rfl
@[simp] theorem evaluateAlu_cancelDraws (k : Bool) (s : State) : (evaluateAlu k s).cancelDraws = s.cancelDraws := rfl
@[simp] theorem evaluateAlu_cpu_a (k : Bool) (s : State) : (evaluateAlu k s).cpu.a = s.cpu.a := rfl
@[simp] theorem evaluateAlu_cpu_b (k : Bool) (s : State) : (evaluateAlu k s).cpu.b = s.cpu.b := rfl
@[simp] theorem evaluateAlu_cpu_c (k : Bool) (s : State) : (evaluateAlu k s).cpu.c = s.cpu.c := rfl
@[simp] theorem evaluateAlu_cpu_d (k : Bool) (s : State) : (evaluateAlu k s).cpu.d = s.cpu.d := rfl
@[simp] theorem evaluateAlu_cpu_g (k : Bool) (s : State) : (evaluateAlu k s).cpu.g = s.cpu.g := rfl
@[simp] theorem evaluateAlu_cpu_h (k : Bool) (s : State) : (evaluateAlu k s).cpu.h = s.cpu.h := rfl
@[simp] theorem evaluateAlu_cpu_x (k : Bool) (s : State) : (evaluateAlu k s).cpu.x = s.cpu.x := rfl
@[simp] theorem evaluateAlu_cpu_y (k : Bool) (s : State) : (evaluateAlu k s).cpu.y = s.cpu.y := rfl
@[simp] theorem evaluateAlu_cpu_u (k : Bool) (s : State) : (evaluateAlu k s).cpu.u = s.cpu.u := rfl
@[simp] theorem evaluateAlu_cpu_v (k : Bool) (s : State) : (evaluateAlu k s).cpu.v = s.cpu.v := rfl
@[simp] theorem evaluateAlu_cpu_aluResult (k : Bool) (s : State) : (evaluateAlu k s).cpu.aluResult = (aluOf s.params.logicCarry s.cpu.a s.cpu.b s.cpu.c k).result := rfl
@[simp] theorem evaluateAlu_cpu_aluFlags (k : Bool) (s : State) : (evaluateAlu k s).cpu.aluFlags = (aluOf s.params.logicCarry s.cpu.a s.cpu.b s.cpu.c k).flags := rfl
@[simp] theorem evaluateAlu_cpu_flags (k : Bool) (s : State) : (evaluateAlu k s).cpu.flags = s.cpu.flags := rfl
@[simp] theorem evaluateAlu_cpu_pc (k : Bool) (s : State) : (evaluateAlu k s).cpu.pc = s.cpu.pc := rfl
@[simp] theorem evaluateAlu_cpu_pcIf (k : Bool) (s : State) : (evaluateAlu k s).cpu.pcIf = s.cpu.pcIf := rfl
@[simp] theorem evaluateAlu_cpu_ifId (k : Bool) (s : State) : (evaluateAlu k s).cpu.ifId = s.cpu.ifId := rfl
@[simp] theorem evaluateAlu_cpu_cw (k : Bool) (s : State) : (evaluateAlu k s).cpu.cw = s.cpu.cw := rfl
@[simp] theorem evaluateAlu_cpu_uptime (k : Bool) (s : State) : (evaluateAlu k s).cpu.uptime = s.cpu.uptime := rfl

/-! ### jumpToXY -/

@[simp] theorem jumpToXY_ram (s : State) : (jumpToXY s).ram = s.ram := rfl
@[simp] theorem jumpToXY_mode (s : State) : (jumpToXY s).mode = s.mode := rfl
@[simp] theorem jumpToXY_cache (s : State) : (jumpToXY s).cache = s.cache := rfl
@[simp] theorem jumpToXY_hits (s : State) : (jumpToXY s).hits = s.hits := rfl
@[simp] theorem jumpToXY_hotCandidate (s : State) : (jumpToXY s).hotCandidate = s.hotCandidate := rfl
@[simp] theorem jumpToXY_skipExec (s : State) : (jumpToXY s).skipExec = s.skipExec := rfl
@[simp] theorem jumpToXY_log (s : State) : (jumpToXY s).log = s.log := rfl
@[simp] theorem jumpToXY_params (s : State) : (jumpToXY s).params = s.params := rfl
@[simp] theorem jumpToXY_events (s : State) : (jumpToXY s).events = s.events ++ [.willJump s.cpu.xy] := rfl
@[simp] theorem jumpToXY_lastError (s : State) : (jumpToXY s).lastError = s.lastError := rfl
@[simp] theorem jumpToXY_periphDraws (s : State) : (jumpToXY s).periphDraws = s.periphDraws := rfl
@[simp] theorem jumpToXY_cancelDraws (s : State) : (jumpToXY s).cancelDraws = s.cancelDraws := rfl
@[simp] theorem jumpToXY_cpu_a (s : State) : (jumpToXY s).cpu.a = s.cpu.a := rfl
@[simp] theorem jumpToXY_cpu_b (s : State) : (jumpToXY s).cpu.b = s.cpu.b := rfl
@[simp] theorem jumpToXY_cpu_c (s : State) : (jumpToXY s).cpu.c = s.cpu.c := rfl
@[simp] theorem jumpToXY_cpu_d (s : State) : (jumpToXY s).cpu.d = s.cpu.d := rfl
@[simp] theorem jumpToXY_cpu_g (s : State) : (jumpToXY s).cpu.g = s.cpu.g := rfl
@[simp] theorem jumpToXY_cpu_h (s : State) : (jumpToXY s).cpu.h = s.cpu.h := rfl
@[simp] theorem jumpToXY_cpu_x (s : State) : (jumpToXY s).cpu.x = s.cpu.x := rfl
@[simp] theorem jumpToXY_cpu_y (s : State) : (jumpToXY s).cpu.y = s.cpu.y := rfl
@[simp] theorem jumpToXY_cpu_u (s : State) : (jumpToXY s).cpu.u = s.cpu.u := rfl
@[simp] theorem jumpToXY_cpu_v (s : State) : (jumpToXY s).cpu.v = s.cpu.v := rfl
@[simp] theorem jumpToXY_cpu_aluResult (s : State) : (jumpToXY s).cpu.aluResult = s.cpu.aluResult := rfl
@[simp] theorem jumpToXY_cpu_aluFlags (s : State) : (jumpToXY s).cpu.aluFlags = s.cpu.aluFlags := rfl
@[simp] theorem jumpToXY_cpu_flags (s : State) : (jumpToXY s).cpu.flags = s.cpu.flags := rfl
@[simp] theorem jumpToXY_cpu_pc (s : State) : (jumpToXY s).cpu.pc = s.cpu.xy := rfl
@[simp] theorem jumpToXY_cpu_pcIf (s : State) : (jumpToXY s).cpu.pcIf = s.cpu.pcIf := rfl
@[simp] theorem jumpToXY_cpu_ifId (s : State) : (jumpToXY s).cpu.ifId = s.cpu.ifId := rfl
@[simp] theorem jumpToXY_cpu_cw (s : State) : (jumpToXY s).cpu.cw = s.cpu.cw := rfl
@[simp] theorem jumpToXY_cpu_uptime (s : State) : (jumpToXY s).cpu.uptime = s.cpu.uptime := rfl

/-! ### nextPc -/

@[simp] theorem nextPc_ram (s : State) : (nextPc s).ram = s.ram := rfl
@[simp] theorem nextPc_mode (s : State) : (nextPc s).mode = s.mode := rfl
@[simp] theorem nextPc_cache (s : State) : (nextPc s).cache = s.cache := rfl
@[simp] theorem nextPc_hits (s : State) : (nextPc s).hits = s.hits := rfl
@[simp] theorem nextPc_hotCandidate (s : State) : (nextPc s).hotCandidate = s.hotCandidate := rfl
@[simp] theorem nextPc_skipExec (s : State) : (nextPc s).skipExec = s.skipExec := rfl
@[simp] theorem nextPc_log (s : State) : (nextPc s).log = s.log := rfl
@[simp] theorem nextPc_params (s : State) : (nextPc s).params = s.params := rfl
@[simp] theorem nextPc_events (s : State) : (nextPc s).events = s.events := rfl
@[simp] theorem nextPc_lastError (s : State) : (nextPc s).lastError = s.lastError := rfl
@[simp] theorem nextPc_periphDraws (s : State) : (nextPc s).periphDraws = s.periphDraws := rfl
@[simp] theorem nextPc_cancelDraws (s : State) : (nextPc s).cancelDraws = s.cancelDraws := rfl
@[simp] theorem nextPc_cpu_a (s : State) : (nextPc s).cpu.a = s.cpu.a := rfl
@[simp] theorem nextPc_cpu_b (s : State) : (nextPc s).cpu.b = s.cpu.b := rfl
@[simp] theorem nextPc_cpu_c (s : State) : (nextPc s).cpu.c = s.cpu.c := rfl
@[simp] theorem nextPc_cpu_d (s : State) : (nextPc s).cpu.d = s.cpu.d := rfl
@[simp] theorem nextPc_cpu_g (s : State) : (nextPc s).cpu.g = s.cpu.g := rfl
@[simp] theorem nextPc_cpu_h (s : State) : (nextPc s).cpu.h = s.cpu.h := rfl
@[simp] theorem nextPc_cpu_x (s : State) : (nextPc s).cpu.x = s.cpu.x := rfl
@[simp] theorem nextPc_cpu_y (s : State) : (nextPc s).cpu.y = s.cpu.y := rfl
@[simp] theorem nextPc_cpu_u (s : State) : (nextPc s).cpu.u = s.cpu.u := rfl
@[simp] theorem nextPc_cpu_v (s : State) : (nextPc s).cpu.v = s.cpu.v := rfl
@[simp] theorem nextPc_cpu_aluResult (s : State) : (nextPc s).cpu.aluResult = s.cpu.aluResult := rfl
@[simp] theorem nextPc_cpu_aluFlags (s : State) : (nextPc s).cpu.aluFlags = s.cpu.aluFlags := rfl
@[simp] theorem nextPc_cpu_flags (s : State) : (nextPc s).cpu.flags = s.cpu.flags := rfl
@[simp] theorem nextPc_cpu_pc (s : State) : (nextPc s).cpu.pc = s.cpu.pc + 1 := rfl
@[simp] theorem nextPc_cpu_pcIf (s : State) : (nextPc s).cpu.pcIf = s.cpu.pcIf := rfl
@[simp] theorem nextPc_cpu_ifId (s : State) : (nextPc s).cpu.ifId = s.cpu.ifId := rfl
@[simp] theorem nextPc_cpu_cw (s : State) : (nextPc s).cpu.cw = s.cpu.cw := rfl
@[simp] theorem nextPc_cpu_uptime (s : State) : (nextPc s).cpu.uptime = s.cpu.uptime := rfl

/-! ### incXY -/

@[simp] theorem incXY_ram (s : State) : (incXY s).ram = s.ram := rfl
@[simp] theorem incXY_mode (s : State) : (incXY s).mode = s.mode := rfl
@[simp] theorem incXY_cache (s : State) : (incXY s).cache = s.cache := rfl
@[simp] theorem incXY_hits (s : State) : (incXY s).hits = s.hits := rfl
@[simp] theorem incXY_hotCandidate (s : State) : (incXY s).hotCandidate = s.hotCandidate := rfl
@[simp] theorem incXY_skipExec (s : State) : (incXY s).skipExec = s.skipExec := rfl
@[simp] theorem incXY_log (s : State) : (incXY s).log = s.log := rfl
@[simp] theorem incXY_params (s : State) : (incXY s).params = s.params := rfl
@[simp] theorem incXY_events (s : State) : (incXY s).events = s.events := rfl
@[simp] theorem incXY_lastError (s : State) : (incXY s).lastError = s.lastError := rfl
@[simp] theorem incXY_periphDraws (s : State) : (incXY s).periphDraws = s.periphDraws := rfl
@[simp] theorem incXY_cancelDraws (s : State) : (incXY s).cancelDraws = s.cancelDraws := rfl
@[simp] theorem incXY_cpu_a (s : State) : (incXY s).cpu.a = s.cpu.a := rfl
@[simp] theorem incXY_cpu_b (s : State) : (incXY s).cpu.b = s.cpu.b := rfl
@[simp] theorem incXY_cpu_c (s : State) : (incXY s).cpu.c = s.cpu.c := rfl
@[simp] theorem incXY_cpu_d (s : State) : (incXY s).cpu.d = s.cpu.d := rfl
@[simp] theorem incXY_cpu_g (s : State) : (incXY s).cpu.g = s.cpu.g := rfl
@[simp] theorem incXY_cpu_h (s : State) : (incXY s).cpu.h = s.cpu.h := rfl
@[simp] theorem incXY_cpu_x (s : State) : (incXY s).cpu.x = (pairInc s.cpu.x s.cpu.y).1 := rfl
@[simp] theorem incXY_cpu_y (s : State) : (incXY s).cpu.y = (pairInc s.cpu.x s.cpu.y).2 := rfl
@[simp] theorem incXY_cpu_u (s : State) : (incXY s).cpu.u = s.cpu.u := rfl
@[simp] theorem incXY_cpu_v (s : State) : (incXY s).cpu.v = s.cpu.v := rfl
@[simp] theorem incXY_cpu_aluResult (s : State) : (incXY s).cpu.aluResult = s.cpu.aluResult := rfl
@[simp] theorem incXY_cpu_aluFlags (s : State) : (incXY s).cpu.aluFlags = s.cpu.aluFlags := rfl
@[simp] theorem incXY_cpu_flags (s : State) : (incXY s).cpu.flags = s.cpu.flags := rfl
@[simp] theorem incXY_cpu_pc (s : State) : (incXY s).cpu.pc = s.cpu.pc := rfl
@[simp] theorem incXY_cpu_pcIf (s : State) : (incXY s).cpu.pcIf = s.cpu.pcIf := rfl
@[simp] theorem incXY_cpu_ifId (s : State) : (incXY s).cpu.ifId = s.cpu.ifId := rfl
@[simp] theorem incXY_cpu_cw (s : State) : (incXY s).cpu.cw = s.cpu.cw := rfl
@[simp] theorem incXY_cpu_uptime (s : State) : (incXY s).cpu.uptime = s.cpu.uptime := rfl

/-! ### incUV -/

@[simp] theorem incUV_ram (s : State) : (incUV s).ram = s.ram := rfl
@[simp] theorem incUV_mode (s : State) : (incUV s).mode = s.mode := rfl
@[simp] theorem incUV_cache (s : State) : (incUV s).cache = s.cache := rfl
@[simp] theorem incUV_hits (s : State) : (incUV s).hits = s.hits := rfl
@[simp] theorem incUV_hotCandidate (s : State) : (incUV s).hotCandidate = s.hotCandidate := rfl
@[simp] theorem incUV_skipExec (s : State) : (incUV s).skipExec = s.skipExec := rfl
@[simp] theorem incUV_log (s : State) : (incUV s).log = s.log := rfl
@[simp] theorem incUV_params (s : State) : (incUV s).params = s.params := rfl
@[simp] theorem incUV_events (s : State) : (incUV s).events = s.events := rfl
@[simp] theorem incUV_lastError (s : State) : (incUV s).lastError = s.lastError := rfl
@[simp] theorem incUV_periphDraws (s : State) : (incUV s).periphDraws = s.periphDraws := rfl
@[simp] theorem incUV_cancelDraws (s : State) : (incUV s).cancelDraws = s.cancelDraws := rfl
@[simp] theorem incUV_cpu_a (s : State) : (incUV s).cpu.a = s.cpu.a := rfl
@[simp] theorem incUV_cpu_b (s : State) : (incUV s).cpu.b = s.cpu.b := rfl
@[simp] theorem incUV_cpu_c (s : State) : (incUV s).cpu.c = s.cpu.c := rfl
@[simp] theorem incUV_cpu_d (s : State) : (incUV s).cpu.d = s.cpu.d := rfl
@[simp] theorem incUV_cpu_g (s : State) : (incUV s).cpu.g = s.cpu.g := rfl
@[simp] theorem incUV_cpu_h (s : State) : (incUV s).cpu.h = s.cpu.h := rfl
@[simp] theorem incUV_cpu_x (s : State) : (incUV s).cpu.x = s.cpu.x := rfl
@[simp] theorem incUV_cpu_y (s : State) : (incUV s).cpu.y = s.cpu.y := rfl
@[simp] theorem incUV_cpu_u (s : State) : (incUV s).cpu.u = (pairInc s.cpu.u s.cpu.v).1 := rfl
@[simp] theorem incUV_cpu_v (s : State) : (incUV s).cpu.v = (pairInc s.cpu.u s.cpu.v).2 := rfl
@[simp] theorem incUV_cpu_aluResult (s : State) : (incUV s).cpu.aluResult = s.cpu.aluResult := rfl
@[simp] theorem incUV_cpu_aluFlags (s : State) : (incUV s).cpu.aluFlags = s.cpu.aluFlags := rfl
@[simp] theorem incUV_cpu_flags (s : State) : (incUV s).cpu.flags = s.cpu.flags := rfl
@[simp] theorem incUV_cpu_pc (s : State) : (incUV s).cpu.pc = s.cpu.pc := rfl
@[simp] theorem incUV_cpu_pcIf (s : State) : (incUV s).cpu.pcIf = s.cpu.pcIf := rfl
@[simp] theorem incUV_cpu_ifId (s : State) : (incUV s).cpu.ifId = s.cpu.ifId := rfl
@[simp] theorem incUV_cpu_cw (s : State) : (incUV s).cpu.cw = s.cpu.cw := rfl
@[simp] theorem incUV_cpu_uptime (s : State) : (incUV s).cpu.uptime = s.cpu.uptime := rfl

/-! ### memWrite -/

@[simp] theorem memWrite_ram (a : Addr) (w : Byte) (s : State) : (memWrite a w s).ram = writeByte s.ram a w := rfl
@[simp] theorem memWrite_mode (a : Addr) (w : Byte) (s : State) : (memWrite a w s).mode = s.mode := rfl
@[simp] theorem memWrite_cache (a : Addr) (w : Byte) (s : State) : (memWrite a w s).cache = s.cache := rfl
@[simp] theorem memWrite_hits (a : Addr) (w : Byte) (s : State) : (memWrite a w s).hits = s.hits := rfl
@[simp] theorem memWrite_hotCandidate (a : Addr) (w : Byte) (s : State) : (memWrite a w s).hotCandidate = s.hotCandidate := rfl
@[simp] theorem memWrite_skipExec (a : Addr) (w : Byte) (s : State) : (memWrite a w s).skipExec = s.skipExec := rfl
@[simp] theorem memWrite_log (a : Addr) (w : Byte) (s : State) : (memWrite a w s).log = s.log := rfl
@[simp] theorem memWrite_params (a : Addr) (w : Byte) (s : State) : (memWrite a w s).params = s.params := rfl
@[simp] theorem memWrite_events (a : Addr) (w : Byte) (s : State) : (memWrite a w s).events = s.events ++ [.memWrite a w] := rfl
@[simp] theorem memWrite_lastError (a : Addr) (w : Byte) (s : State) : (memWrite a w s).lastError = s.lastError := rfl
@[simp] theorem memWrite_periphDraws (a : Addr) (w : Byte) (s : State) : (memWrite a w s).periphDraws = s.periphDraws := rfl
@[simp] theorem memWrite_cancelDraws (a : Addr) (w : Byte) (s : State) : (memWrite a w s).cancelDraws = s.cancelDraws := rfl
@[simp] theorem memWrite_cpu (a : Addr) (w : Byte) (s : State) : (memWrite a w s).cpu = s.cpu := rfl

/-! ### periphStore -/

@[simp] theorem periphStore_ram (d : Byte) (a : Addr) (w : Byte) (s : State) : (periphStore d a w s).ram = s.ram := rfl
@[simp] theorem periphStore_mode (d : Byte) (a : Addr) (w : Byte) (s : State) : (periphStore d a w s).mode = s.mode := rfl
@[simp] theorem periphStore_cache (d : Byte) (a : Addr) (w : Byte) (s : State) : (periphStore d a w s).cache = s.cache := rfl
@[simp] theorem periphStore_hits (d : Byte) (a : Addr) (w : Byte) (s : State) : (periphStore d a w s).hits = s.hits := rfl
@[simp] theorem periphStore_hotCandidate (d : Byte) (a : Addr) (w : Byte) (s : State) : (periphStore d a w s).hotCandidate = s.hotCandidate := rfl
@[simp] theorem periphStore_skipExec (d : Byte) (a : Addr) (w : Byte) (s : State) : (periphStore d a w s).skipExec = s.skipExec := rfl
@[simp] theorem periphStore_log (d : Byte) (a : Addr) (w : Byte) (s : State) : (periphStore d a w s).log = s.log := rfl
@[simp] theorem periphStore_params (d : Byte) (a : Addr) (w : Byte) (s : State) : (periphStore d a w s).params = s.params := rfl
@[simp] theorem periphStore_events (d : Byte) (a : Addr) (w : Byte) (s : State) : (periphStore d a w s).events = s.events ++ [.periphStore d a w] := rfl
@[simp] theorem periphStore_lastError (d : Byte) (a : Addr) (w : Byte) (s : State) : (periphStore d a w s).lastError = s.lastError := rfl
@[simp] theorem periphStore_periphDraws (d : Byte) (a : Addr) (w : Byte) (s : State) : (periphStore d a w s).periphDraws = s.periphDraws := rfl
@[simp] theorem periphStore_cancelDraws (d : Byte) (a : Addr) (w : Byte) (s : State) : (periphStore d a w s).cancelDraws = s.cancelDraws := rfl
@[simp] theorem periphStore_cpu (d : Byte) (a : Addr) (w : Byte) (s : State) : (periphStore d a w s).cpu = s.cpu := rfl

/-! ### latchFlags -/

@[simp] theorem latchFlags_ram (s : State) : (latchFlags s).ram = s.ram := rfl
@[simp] theorem latchFlags_mode (s : State) : (latchFlags s).mode = s.mode := rfl
@[simp] theorem latchFlags_cache (s : State) : (latchFlags s).cache = s.cache := rfl
@[simp] theorem latchFlags_hits (s : State) : (latchFlags s).hits = s.hits := rfl
@[simp] theorem latchFlags_hotCandidate (s : State) : (latchFlags s).hotCandidate = s.hotCandidate := rfl
@[simp] theorem latchFlags_skipExec (s : State) : (latchFlags s).skipExec = s.skipExec := rfl
@[simp] theorem latchFlags_log (s : State) : (latchFlags s).log = s.log := rfl
@[simp] theorem latchFlags_params (s : State) : (latchFlags s).params = s.params := rfl
@[simp] theorem latchFlags_events (s : State) : (latchFlags s).events = s.events := rfl
@[simp] theorem latchFlags_lastError (s : State) : (latchFlags s).lastError = s.lastError := rfl
@[simp] theorem latchFlags_periphDraws (s : State) : (latchFlags s).periphDraws = s.periphDraws := rfl
@[simp] theorem latchFlags_cancelDraws (s : State) : (latchFlags s).cancelDraws = s.cancelDraws := rfl
@[simp] theorem latchFlags_cpu_a (s : State) : (latchFlags s).cpu.a = s.cpu.a := rfl
@[simp] theorem latchFlags_cpu_b (s : State) : (latchFlags s).cpu.b = s.cpu.b := rfl
@[simp] theorem latchFlags_cpu_c (s : State) : (latchFlags s).cpu.c = s.cpu.c := rfl
@[simp] theorem latchFlags_cpu_d (s : State) : (latchFlags s).cpu.d = s.cpu.d := rfl
@[simp] theorem latchFlags_cpu_g (s : State) : (latchFlags s).cpu.g = s.cpu.g := rfl
@[simp] theorem latchFlags_cpu_h (s : State) : (latchFlags s).cpu.h = s.cpu.h := rfl
@[simp] theorem latchFlags_cpu_x (s : State) : (latchFlags s).cpu.x = s.cpu.x := rfl
@[simp] theorem latchFlags_cpu_y (s : State) : (latchFlags s).cpu.y = s.cpu.y := rfl
@[simp] theorem latchFlags_cpu_u (s : State) : (latchFlags s).cpu.u = s.cpu.u := rfl
@[simp] theorem latchFlags_cpu_v (s : State) : (latchFlags s).cpu.v = s.cpu.v := rfl
@[simp] theorem latchFlags_cpu_aluResult (s : State) : (latchFlags s).cpu.aluResult = s.cpu.aluResult := rfl
@[simp] theorem latchFlags_cpu_aluFlags (s : State) : (latchFlags s).cpu.aluFlags = s.cpu.aluFlags := rfl
@[simp] theorem latchFlags_cpu_flags (s : State) : (latchFlags s).cpu.flags = s.cpu.aluFlags := rfl
@[simp] theorem latchFlags_cpu_pc (s : State) : (latchFlags s).cpu.pc = s.cpu.pc := rfl
@[simp] theorem latchFlags_cpu_pcIf (s : State) : (latchFlags s).cpu.pcIf = s.cpu.pcIf := rfl
@[simp] theorem latchFlags_cpu_ifId (s : State) : (latchFlags s).cpu.ifId = s.cpu.ifId := rfl
@[simp] theorem latchFlags_cpu_cw (s : State) : (latchFlags s).cpu.cw = s.cpu.cw := rfl
@[simp] theorem latchFlags_cpu_uptime (s : State) : (latchFlags s).cpu.uptime = s.cpu.uptime := rfl

/-! ### tick -/

@[simp] theorem tick_ram (s : State) : (tick s).ram = s.ram := rfl
@[simp] theorem tick_mode (s : State) : (tick s).mode = s.mode := rfl
@[simp] theorem tick_cache (s : State) : (tick s).cache = s.cache := rfl
@[simp] theorem tick_hits (s : State) : (tick s).hits = s.hits := rfl
@[simp] theorem tick_hotCandidate (s : State) : (tick s).hotCandidate = s.hotCandidate := rfl
@[simp] theorem tick_skipExec (s : State) : (tick s).skipExec = s.skipExec := rfl
@[simp] theorem tick_log (s : State) : (tick s).log = s.log := rfl
@[simp] theorem tick_params (s : State) : (tick s).params = s.params := rfl
@[simp] theorem tick_events (s : State) : (tick s).events = s.events := rfl
@[simp] theorem tick_lastError (s : State) : (tick s).lastError = s.lastError := rfl
@[simp] theorem tick_periphDraws (s : State) : (tick s).periphDraws = s.periphDraws := rfl
@[simp] theorem tick_cancelDraws (s : State) : (tick s).cancelDraws = s.cancelDraws := rfl
@[simp] theorem tick_cpu_a (s : State) : (tick s).cpu.a = s.cpu.a := rfl
@[simp] theorem tick_cpu_b (s : State) : (tick s).cpu.b = s.cpu.b := rfl
@[simp] theorem tick_cpu_c (s : State) : (tick s).cpu.c = s.cpu.c := rfl
@[simp] theorem tick_cpu_d (s : State) : (tick s).cpu.d = s.cpu.d := rfl
@[simp] theorem tick_cpu_g (s : State) : (tick s).cpu.g = s.cpu.g := rfl
@[simp] theorem tick_cpu_h (s : State) : (tick s).cpu.h = s.cpu.h := rfl
@[simp] theorem tick_cpu_x (s : State) : (tick s).cpu.x = s.cpu.x := rfl
@[simp] theorem tick_cpu_y (s : State) : (tick s).cpu.y = s.cpu.y := rfl
@[simp] theorem tick_cpu_u (s : State) : (tick s).cpu.u = s.cpu.u := rfl
@[simp] theorem tick_cpu_v (s : State) : (tick s).cpu.v = s.cpu.v := rfl
@[simp] theorem tick_cpu_aluResult (s : State) : (tick s).cpu.aluResult = s.cpu.aluResult := rfl
@[simp] theorem tick_cpu_aluFlags (s : State) : (tick s).cpu.aluFlags = s.cpu.aluFlags := rfl
@[simp] theorem tick_cpu_flags (s : State) : (tick s).cpu.flags = s.cpu.flags := rfl
@[simp] theorem tick_cpu_pc (s : State) : (tick s).cpu.pc = s.cpu.pc := rfl
@[simp] theorem tick_cpu_pcIf (s : State) : (tick s).cpu.pcIf = s.cpu.pcIf := rfl
@[simp] theorem tick_cpu_ifId (s : State) : (tick s).cpu.ifId = s.cpu.ifId := rfl
@[simp] theorem tick_cpu_cw (s : State) : (tick s).cpu.cw = s.cpu.cw := rfl
@[simp] theorem tick_cpu_uptime (s : State) : (tick s).cpu.uptime = s.cpu.uptime + 1 := rfl

/-! ### flush -/

@[simp] theorem flush_ram (t : Trace) (s : State) : (flush t s).ram = s.ram := rfl
@[simp] theorem flush_mode (t : Trace) (s : State) : (flush t s).mode = s.mode := rfl
@[simp] theorem flush_cache (t : Trace) (s : State) : (flush t s).cache = s.cache := rfl
@[simp] theorem flush_hits (t : Trace) (s : State) : (flush t s).hits = s.hits := rfl
@[simp] theorem flush_hotCandidate (t : Trace) (s : State) : (flush t s).hotCandidate = s.hotCandidate := rfl
@[simp] theorem flush_skipExec (t : Trace) (s : State) : (flush t s).skipExec = s.skipExec := rfl
@[simp] theorem flush_log (t : Trace) (s : State) : (flush t s).log = s.log := rfl
@[simp] theorem flush_params (t : Trace) (s : State) : (flush t s).params = s.params := rfl
@[simp] theorem flush_events (t : Trace) (s : State) : (flush t s).events = s.events := rfl
@[simp] theorem flush_lastError (t : Trace) (s : State) : (flush t s).lastError = s.lastError := rfl
@[simp] theorem flush_periphDraws (t : Trace) (s : State) : (flush t s).periphDraws = s.periphDraws := rfl
@[simp] theorem flush_cancelDraws (t : Trace) (s : State) : (flush t s).cancelDraws = s.cancelDraws := rfl
@[simp] theorem flush_cpu_a (t : Trace) (s : State) : (flush t s).cpu.a = s.cpu.a := rfl
@[simp] theorem flush_cpu_b (t : Trace) (s : State) : (flush t s).cpu.b = s.cpu.b := rfl
@[simp] theorem flush_cpu_c (t : Trace) (s : State) : (flush t s).cpu.c = s.cpu.c := rfl
@[simp] theorem flush_cpu_d (t : Trace) (s : State) : (flush t s).cpu.d = s.cpu.d := rfl
@[simp] theorem flush_cpu_g (t : Trace) (s : State) : (flush t s).cpu.g = s.cpu.g := rfl
@[simp] theorem flush_cpu_h (t : Trace) (s : State) : (flush t s).cpu.h = s.cpu.h := rfl
@[simp] theorem flush_cpu_x (t : Trace) (s : State) : (flush t s).cpu.x = s.cpu.x := rfl
@[simp] theorem flush_cpu_y (t : Trace) (s : State) : (flush t s).cpu.y = s.cpu.y := rfl
@[simp] theorem flush_cpu_u (t : Trace) (s : State) : (flush t s).cpu.u = s.cpu.u := rfl
@[simp] theorem flush_cpu_v (t : Trace) (s : State) : (flush t s).cpu.v = s.cpu.v := rfl
@[simp] theorem flush_cpu_aluResult (t : Trace) (s : State) : (flush t s).cpu.aluResult = s.cpu.aluResult := rfl
@[simp] theorem flush_cpu_aluFlags (t : Trace) (s : State) : (flush t s).cpu.aluFlags = s.cpu.aluFlags := rfl
@[simp] theorem flush_cpu_flags (t : Trace) (s : State) : (flush t s).cpu.flags = s.cpu.flags := rfl
@[simp] theorem flush_cpu_pc (t : Trace) (s : State) : (flush t s).cpu.pc = t.head.pc + 2 := rfl
@[simp] theorem flush_cpu_pcIf (t : Trace) (s : State) : (flush t s).cpu.pcIf = t.head.pc + 1 := rfl
@[simp] theorem flush_cpu_ifId (t : Trace) (s : State) : (flush t s).cpu.ifId = t.head := rfl
@[simp] theorem flush_cpu_cw (t : Trace) (s : State) : (flush t s).cpu.cw = s.cpu.cw := rfl
@[simp] theorem flush_cpu_uptime (t : Trace) (s : State) : (flush t s).cpu.uptime = s.cpu.uptime := rfl

/-! ### bail -/

@[simp] theorem bail_ram (e : Addr) (s : State) : (bail e s).ram = s.ram := rfl
@[simp] theorem bail_mode (e : Addr) (s : State) : (bail e s).mode = s.mode := rfl
@[simp] theorem bail_cache (e : Addr) (s : State) : (bail e s).cache = s.cache := rfl
@[simp] theorem bail_hits (e : Addr) (s : State) : (bail e s).hits = s.hits := rfl
@[simp] theorem bail_hotCandidate (e : Addr) (s : State) : (bail e s).hotCandidate = s.hotCandidate := rfl
@[simp] theorem bail_skipExec (e : Addr) (s : State) : (bail e s).skipExec = s.skipExec := rfl
@[simp] theorem bail_log (e : Addr) (s : State) : (bail e s).log = s.log := rfl
@[simp] theorem bail_params (e : Addr) (s : State) : (bail e s).params = s.params := rfl
@[simp] theorem bail_events (e : Addr) (s : State) : (bail e s).events = s.events := rfl
@[simp] theorem bail_lastError (e : Addr) (s : State) : (bail e s).lastError = s.lastError := rfl
@[simp] theorem bail_periphDraws (e : Addr) (s : State) : (bail e s).periphDraws = s.periphDraws := rfl
@[simp] theorem bail_cancelDraws (e : Addr) (s : State) : (bail e s).cancelDraws = s.cancelDraws := rfl
@[simp] theorem bail_cpu_a (e : Addr) (s : State) : (bail e s).cpu.a = s.cpu.a := rfl
@[simp] theorem bail_cpu_b (e : Addr) (s : State) : (bail e s).cpu.b = s.cpu.b := rfl
@[simp] theorem bail_cpu_c (e : Addr) (s : State) : (bail e s).cpu.c = s.cpu.c := rfl
@[simp] theorem bail_cpu_d (e : Addr) (s : State) : (bail e s).cpu.d = s.cpu.d := rfl
@[simp] theorem bail_cpu_g (e : Addr) (s : State) : (bail e s).cpu.g = s.cpu.g := rfl
@[simp] theorem bail_cpu_h (e : Addr) (s : State) : (bail e s).cpu.h = s.cpu.h := rfl
@[simp] theorem bail_cpu_x (e : Addr) (s : State) : (bail e s).cpu.x = s.cpu.x := rfl
@[simp] theorem bail_cpu_y (e : Addr) (s : State) : (bail e s).cpu.y = s.cpu.y := rfl
@[simp] theorem bail_cpu_u (e : Addr) (s : State) : (bail e s).cpu.u = s.cpu.u := rfl
@[simp] theorem bail_cpu_v (e : Addr) (s : State) : (bail e s).cpu.v = s.cpu.v := rfl
@[simp] theorem bail_cpu_aluResult (e : Addr) (s : State) : (bail e s).cpu.aluResult = s.cpu.aluResult := rfl
@[simp] theorem bail_cpu_aluFlags (e : Addr) (s : State) : (bail e s).cpu.aluFlags = s.cpu.aluFlags := rfl
@[simp] theorem bail_cpu_flags (e : Addr) (s : State) : (bail e s).cpu.flags = s.cpu.flags := rfl
@[simp] theorem bail_cpu_pc (e : Addr) (s : State) : (bail e s).cpu.pc = e := rfl
@[simp] theorem bail_cpu_pcIf (e : Addr) (s : State) : (bail e s).cpu.pcIf = s.cpu.pcIf := rfl
@[simp] theorem bail_cpu_ifId (e : Addr) (s : State) : (bail e s).cpu.ifId = s.cpu.ifId := rfl
@[simp] theorem bail_cpu_cw (e : Addr) (s : State) : (bail e s).cpu.cw = s.cpu.cw := rfl
@[simp] theorem bail_cpu_uptime (e : Addr) (s : State) : (bail e s).cpu.uptime = s.cpu.uptime := rfl

/-! ### resync -/

@[simp] theorem resync_ram (e : Addr) (s : State) : (resync e s).ram = s.ram := rfl
@[simp] theorem resync_mode (e : Addr) (s : State) : (resync e s).mode = s.mode := rfl
@[simp] theorem resync_cache (e : Addr) (s : State) : (resync e s).cache = s.cache := rfl
@[simp] theorem resync_hits (e : Addr) (s : State) : (resync e s).hits = s.hits := rfl
@[simp] theorem resync_hotCandidate (e : Addr) (s : State) : (resync e s).hotCandidate = s.hotCandidate := rfl
@[simp] theorem resync_skipExec (e : Addr) (s : State) : (resync e s).skipExec = s.skipExec := rfl
@[simp] theorem resync_log (e : Addr) (s : State) : (resync e s).log = s.log := rfl
@[simp] theorem resync_params (e : Addr) (s : State) : (resync e s).params = s.params := rfl
@[simp] theorem resync_events (e : Addr) (s : State) : (resync e s).events = s.events := rfl
@[simp] theorem resync_lastError (e : Addr) (s : State) : (resync e s).lastError = s.lastError := rfl
@[simp] theorem resync_periphDraws (e : Addr) (s : State) : (resync e s).periphDraws = s.periphDraws := rfl
@[simp] theorem resync_cancelDraws (e : Addr) (s : State) : (resync e s).cancelDraws = s.cancelDraws := rfl
@[simp] theorem resync_cpu_a (e : Addr) (s : State) : (resync e s).cpu.a = s.cpu.a := rfl
@[simp] theorem resync_cpu_b (e : Addr) (s : State) : (resync e s).cpu.b = s.cpu.b := rfl
@[simp] theorem resync_cpu_c (e : Addr) (s : State) : (resync e s).cpu.c = s.cpu.c := rfl
@[simp] theorem resync_cpu_d (e : Addr) (s : State) : (resync e s).cpu.d = s.cpu.d := rfl
@[simp] theorem resync_cpu_g (e : Addr) (s : State) : (resync e s).cpu.g = s.cpu.g := rfl
@[simp] theorem resync_cpu_h (e : Addr) (s : State) : (resync e s).cpu.h = s.cpu.h := rfl
@[simp] theorem resync_cpu_x (e : Addr) (s : State) : (resync e s).cpu.x = s.cpu.x := rfl
@[simp] theorem resync_cpu_y (e : Addr) (s : State) : (resync e s).cpu.y = s.cpu.y := rfl
@[simp] theorem resync_cpu_u (e : Addr) (s : State) : (resync e s).cpu.u = s.cpu.u := rfl
@[simp] theorem resync_cpu_v (e : Addr) (s : State) : (resync e s).cpu.v = s.cpu.v := rfl
@[simp] theorem resync_cpu_aluResult (e : Addr) (s : State) : (resync e s).cpu.aluResult = s.cpu.aluResult := rfl
@[simp] theorem resync_cpu_aluFlags (e : Addr) (s : State) : (resync e s).cpu.aluFlags = s.cpu.aluFlags := rfl
@[simp] theorem resync_cpu_flags (e : Addr) (s : State) : (resync e s).cpu.flags = s.cpu.flags := rfl
@[simp] theorem resync_cpu_pc (e : Addr) (s : State) : (resync e s).cpu.pc = e + 2 := rfl
@[simp] theorem resync_cpu_pcIf (e : Addr) (s : State) : (resync e s).cpu.pcIf = e + 1 := rfl
@[simp] theorem resync_cpu_ifId (e : Addr) (s : State) : (resync e s).cpu.ifId = fetch s.params e := rfl
@[simp] theorem resync_cpu_cw (e : Addr) (s : State) : (resync e s).cpu.cw = s.cpu.cw := rfl
@[simp] theorem resync_cpu_uptime (e : Addr) (s : State) : (resync e s).cpu.uptime = s.cpu.uptime := rfl

/-! ### beginVmStep -/

@[simp] theorem beginVmStep_ram (s : State) : (beginVmStep s).ram = s.ram := rfl
@[simp] theorem beginVmStep_mode (s : State) : (beginVmStep s).mode = s.mode := rfl
@[simp] theorem beginVmStep_cache (s : State) : (beginVmStep s).cache = s.cache := rfl
@[simp] theorem beginVmStep_hits (s : State) : (beginVmStep s).hits = s.hits := rfl
@[simp] theorem beginVmStep_hotCandidate (s : State) : (beginVmStep s).hotCandidate = none := rfl
@[simp] theorem beginVmStep_skipExec (s : State) : (beginVmStep s).skipExec = false := rfl
@[simp] theorem beginVmStep_log (s : State) : (beginVmStep s).log = s.log := rfl
@[simp] theorem beginVmStep_params (s : State) : (beginVmStep s).params = s.params := rfl
@[simp] theorem beginVmStep_events (s : State) : (beginVmStep s).events = s.events := rfl
@[simp] theorem beginVmStep_lastError (s : State) : (beginVmStep s).lastError = none := rfl
@[simp] theorem beginVmStep_periphDraws (s : State) : (beginVmStep s).periphDraws = s.periphDraws := rfl
@[simp] theorem beginVmStep_cancelDraws (s : State) : (beginVmStep s).cancelDraws = s.cancelDraws := rfl
@[simp] theorem beginVmStep_cpu (s : State) : (beginVmStep s).cpu = s.cpu := rfl

end Sys2Proof.Machine
end

