-- ==== Sys2Proof/Laws/Ops.lean ====
section
/-! SUPPORT. What the shared operations do: one lemma each that says all of it, and `clock_eq`, the whole non-halted step as
one equation per field. -/

namespace Sys2Proof.Machine

open Sys2Proof.Safety

/-! ### Outcomes -/

@[simp] theorem andThen_next {σ τ φ ρ : Type} (s : σ) (f : σ → Host.Outcome τ φ ρ) : andThen (.next s) f = f s := rfl

/-- A composed step has a next state exactly where both parts have one. -/
theorem andThen_eq_next {σ τ φ ρ : Type} {o : Host.Outcome σ φ ρ} {f : σ → Host.Outcome τ φ ρ} {t : τ} :
    andThen o f = .next t ↔ ∃ s, o = .next s ∧ f s = .next t := by
  cases o <;> simp [andThen]

/-! ### Pairs -/

@[simp] theorem highByte_pairOf (h l : Byte) : highByte (pairOf h l) = h := by
  apply BitVec.eq_of_getLsbD_eq
  intro i hi
  rw [highByte, BitVec.getLsbD_extractLsb', pairOf]
  show (decide (i < 8) && (h ++ l : BitVec (8 + 8)).getLsbD (8 + i)) = _
  rw [BitVec.getLsbD_append]
  simp [hi]

@[simp] theorem lowByte_pairOf (h l : Byte) : lowByte (pairOf h l) = l := by
  apply BitVec.eq_of_getLsbD_eq
  intro i hi
  rw [lowByte, BitVec.getLsbD_extractLsb', pairOf]
  show (decide (i < 8) && (h ++ l : BitVec (8 + 8)).getLsbD (0 + i)) = _
  rw [BitVec.getLsbD_append]
  simp [hi]

@[simp] theorem pairOf_bytes (v : Addr) : pairOf (highByte v) (lowByte v) = v := by
  apply BitVec.eq_of_getLsbD_eq
  intro i hi
  simp only [pairOf, highByte, lowByte, BitVec.getLsbD_append, BitVec.getLsbD_extractLsb']
  by_cases h : i < 8
  · simp [h]
  · have h8 : 8 + (i - 8) = i := by omega
    have : i - 8 < 8 := by omega
    simp [h, h8, this]

theorem toNat_pairOf (h l : Byte) : (pairOf h l).toNat = h.toNat * 256 + l.toNat := by
  have := l.isLt
  rw [pairOf, BitVec.toNat_append, Nat.shiftLeft_eq, Nat.mul_comm, ← Nat.two_pow_add_eq_or_of_lt this]

/-- Two pairs are equal exactly where both bytes are. -/
theorem pairOf_inj {h h' l l' : Byte} : pairOf h l = pairOf h' l' ↔ h = h' ∧ l = l' :=
  ⟨fun e => ⟨by rw [← highByte_pairOf h l, e, highByte_pairOf], by rw [← lowByte_pairOf h l, e, lowByte_pairOf]⟩,
   fun e => by rw [e.1, e.2]⟩

/-! ### Signals -/

/-- The reference layout carries signal number k on bit k (30_encoding.md R62). -/
theorem reference_bit (sig : Signal) : (Layout.reference.bit sig).val = sig.index.val := by
  cases sig <;> rfl

theorem onSignal_of_asserted {layout : Layout} {cw : ControlWord} {sig : Signal} (h : asserted layout cw sig = true)
    (f : State → State) (s : State) : onSignal layout cw sig f s = f s := by simp [onSignal, h]

theorem onSignal_of_not {layout : Layout} {cw : ControlWord} {sig : Signal} (h : asserted layout cw sig = false)
    (f : State → State) (s : State) : onSignal layout cw sig f s = s := by simp [onSignal, h]

/-! ### The bus -/

theorem find?_cons_ite {α : Type} (p : α → Bool) (x : α) (l : List α) :
    (x :: l).find? p = if p x = true then some x else l.find? p := by
  rw [List.find?_cons]; cases p x <;> rfl

/-- The winning output, as a choice from the last of the order to the first (41_pipeline_step.md R122). -/
theorem winner_eq (layout : Layout) (cw : ControlWord) :
    winner layout cw =
      let on := fun o : BusOutput => asserted layout cw o.signal
      if on .po then some .po else if on .mo then some .mo else if on .vo then some .vo else if on .uo then some .uo
      else if on .yo then some .yo else if on .xo then some .xo else if on .eo then some .eo else if on .co then some .co
      else if on .bo then some .bo else if on .ao then some .ao else if on .ho then some .ho
      else if on .go then some .go else none := by
  simp only [winner, outputOrder, List.reverse_cons, List.reverse_nil, List.nil_append, List.cons_append, find?_cons_ite,
    List.find?_nil]

/-- The winning output is asserted. -/
theorem asserted_of_winner {layout : Layout} {cw : ControlWord} {o : BusOutput} (h : winner layout cw = some o) :
    asserted layout cw o.signal = true := by
  have := List.find?_some h
  simpa using this

/-! ### The whole step -/

/-- Steps (a) to (d), field by field. -/
theorem beforeBus_eq (layout : Layout) (cw : ControlWord) (imm : Byte) (s : State) :
    beforeBus layout cw imm s =
      { s with
        cpu := { s.cpu with
          c := imm, cw := cw, ifId := fetch s.params s.cpu.pcIf, pcIf := s.cpu.pc
          aluResult := (stepAlu s imm (!asserted layout cw .carryIn)).result
          aluFlags := (stepAlu s imm (!asserted layout cw .carryIn)).flags }
        events := s.events ++ [.fetch s.cpu.pcIf] } := rfl

/-- The byte on the bus: 0x00 with no output asserted, else the winner's value over the state before the step, where `EO`
drives the ALU result of this step. -/
theorem stepBus_eq (layout : Layout) (cw : ControlWord) (imm : Byte) (s : State) :
    stepBus layout cw imm s =
      match winner layout cw with
      | none => 0x00
      | some .eo => (stepAlu s imm (!asserted layout cw .carryIn)).result
      | some o => sourceValue s imm o := by
  unfold stepBus busValue
  rw [beforeBus_eq]
  cases winner layout cw with
  | none => rfl
  | some o => cases o <;> rfl

/-- The pair increment of two bytes is the 16-bit increment of the pair. -/
theorem pairInc_eq (h l : Byte) : pairInc h l = (highByte (pairOf h l + 1), lowByte (pairOf h l + 1)) := by
  have hp : pairOf (pairInc h l).1 (pairInc h l).2 = pairOf h l + 1 := by
    apply BitVec.eq_of_toNat_eq
    rw [toNat_pairOf, BitVec.toNat_add, toNat_pairOf]
    have hl := l.isLt
    have hh := h.isLt
    unfold pairInc
    by_cases hw : l + 1 = 0
    · have : l.toNat = 255 := by
        have := congrArg BitVec.toNat hw
        simp [BitVec.toNat_add] at this
        omega
      simp only [hw, if_true, BitVec.toNat_add]
      simp; omega
    · have : l.toNat ≠ 255 := fun hc => hw (BitVec.eq_of_toNat_eq (by simp [BitVec.toNat_add, hc]))
      simp only [hw, if_false, BitVec.toNat_add]
      simp; omega
  rw [← hp]; simp

/-! ### The latches, each as one record -/

theorem onSignal_ai (layout : Layout) (cw : ControlWord) (bus : Byte) (s : State) :
    onSignal layout cw .ai (fun s => { s with cpu := { s.cpu with a := bus } }) s =
      { s with cpu := { s.cpu with a := if asserted layout cw .ai then bus else s.cpu.a } } := by
  unfold onSignal; split <;> rfl

theorem onSignal_bi (layout : Layout) (cw : ControlWord) (bus : Byte) (s : State) :
    onSignal layout cw .bi (fun s => { s with cpu := { s.cpu with b := bus } }) s =
      { s with cpu := { s.cpu with b := if asserted layout cw .bi then bus else s.cpu.b } } := by
  unfold onSignal; split <;> rfl

theorem onSignal_di (layout : Layout) (cw : ControlWord) (bus : Byte) (s : State) :
    onSignal layout cw .di (fun s => { s with cpu := { s.cpu with d := bus } }) s =
      { s with cpu := { s.cpu with d := if asserted layout cw .di then bus else s.cpu.d } } := by
  unfold onSignal; split <;> rfl

theorem onSignal_xi (layout : Layout) (cw : ControlWord) (bus : Byte) (s : State) :
    onSignal layout cw .xi (fun s => { s with cpu := { s.cpu with x := bus } }) s =
      { s with cpu := { s.cpu with x := if asserted layout cw .xi then bus else s.cpu.x } } := by
  unfold onSignal; split <;> rfl

theorem onSignal_yi (layout : Layout) (cw : ControlWord) (bus : Byte) (s : State) :
    onSignal layout cw .yi (fun s => { s with cpu := { s.cpu with y := bus } }) s =
      { s with cpu := { s.cpu with y := if asserted layout cw .yi then bus else s.cpu.y } } := by
  unfold onSignal; split <;> rfl

theorem onSignal_ui (layout : Layout) (cw : ControlWord) (bus : Byte) (s : State) :
    onSignal layout cw .ui (fun s => { s with cpu := { s.cpu with u := bus } }) s =
      { s with cpu := { s.cpu with u := if asserted layout cw .ui then bus else s.cpu.u } } := by
  unfold onSignal; split <;> rfl

theorem onSignal_vi (layout : Layout) (cw : ControlWord) (bus : Byte) (s : State) :
    onSignal layout cw .vi (fun s => { s with cpu := { s.cpu with v := bus } }) s =
      { s with cpu := { s.cpu with v := if asserted layout cw .vi then bus else s.cpu.v } } := by
  unfold onSignal; split <;> rfl

/-- The seven latches together (R141 to R147). -/
theorem latchRegisters_eq (layout : Layout) (cw : ControlWord) (bus : Byte) (s : State) :
    latchRegisters layout cw bus s =
      let on := fun sig => asserted layout cw sig
      { s with
        cpu := { s.cpu with
          a := if on .ai then bus else s.cpu.a
          b := if on .bi then bus else s.cpu.b
          d := if on .di then bus else s.cpu.d
          x := if on .xi then bus else s.cpu.x
          y := if on .yi then bus else s.cpu.y
          u := if on .ui then bus else s.cpu.u
          v := if on .vi then bus else s.cpu.v } } := by
  simp only [latchRegisters, onSignal_ai, onSignal_bi, onSignal_di, onSignal_xi, onSignal_yi, onSignal_ui, onSignal_vi]

theorem onSignal_mi (layout : Layout) (cw : ControlWord) (a : Addr) (bus : Byte) (s : State) :
    onSignal layout cw .mi (memWrite a bus) s =
      { s with
        ram := if asserted layout cw .mi then writeByte s.ram a bus else s.ram
        events := s.events ++ if asserted layout cw .mi then [.memWrite a bus] else [] } := by
  unfold onSignal; split <;> simp [memWrite, emit]

theorem onSignal_pi (layout : Layout) (cw : ControlWord) (d : Byte) (a : Addr) (bus : Byte) (s : State) :
    onSignal layout cw .pi (periphStore d a bus) s =
      { s with events := s.events ++ if asserted layout cw .pi then [.periphStore d a bus] else [] } := by
  unfold onSignal; split <;> simp [periphStore, emit]

/-- `LinkIn` (42_control_flow.md R164). -/
theorem onSignal_linkIn (layout : Layout) (cw : ControlWord) (s : State) :
    onSignal layout cw .linkIn latchLink s =
      let v := linkValue s.params.rev s.cpu.pc s.cpu.pcIf
      { s with cpu := { s.cpu with
        g := if asserted layout cw .linkIn then highByte v else s.cpu.g
        h := if asserted layout cw .linkIn then lowByte v else s.cpu.h } } := by
  unfold onSignal latchLink linkValue; cases s.params.rev <;> split <;> rfl

theorem onSignal_fi (layout : Layout) (cw : ControlWord) (s : State) :
    onSignal layout cw .fi latchFlags s =
      { s with cpu := { s.cpu with flags := if asserted layout cw .fi then s.cpu.aluFlags else s.cpu.flags } } := by
  unfold onSignal; split <;> rfl

theorem onSignal_xyInc (layout : Layout) (cw : ControlWord) (s : State) :
    onSignal layout cw .xyInc incXY s =
      { s with cpu := { s.cpu with
        x := if asserted layout cw .xyInc then highByte (s.cpu.xy + 1) else s.cpu.x
        y := if asserted layout cw .xyInc then lowByte (s.cpu.xy + 1) else s.cpu.y } } := by
  unfold onSignal incXY; rw [pairInc_eq]; split <;> rfl

theorem onSignal_uvInc (layout : Layout) (cw : ControlWord) (s : State) :
    onSignal layout cw .uvInc incUV s =
      { s with cpu := { s.cpu with
        u := if asserted layout cw .uvInc then highByte (s.cpu.uv + 1) else s.cpu.u
        v := if asserted layout cw .uvInc then lowByte (s.cpu.uv + 1) else s.cpu.v } } := by
  unfold onSignal incUV; rw [pairInc_eq]; split <;> rfl

/-- Step (f) (R123). -/
theorem advancePc_eq (layout : Layout) (cw : ControlWord) (s : State) :
    advancePc layout cw s =
      { s with
        cpu := { s.cpu with pc := if asserted layout cw .j then s.cpu.xy else s.cpu.pc + 1 }
        events := s.events ++ if asserted layout cw .j then [.willJump s.cpu.xy] else [] } := by
  unfold advancePc; split <;> simp [jumpToXY, nextPc, emit]

/-- What driving the bus does beside its value: at most one event and one draw. -/
theorem driveBus_eq (layout : Layout) (cw : ControlWord) (s : State) :
    driveBus layout cw s =
      { s with
        events := s.events ++
          (match winner layout cw with
            | some .mo => [.memRead s.cpu.uv (busValue layout cw s)]
            | some .po => [.periphLoad s.cpu.d s.cpu.uv (busValue layout cw s)]
            | _ => [])
        periphDraws := s.periphDraws +
          if winner layout cw = some .po ∧ slotOccupied s.params s.cpu.d = true then 1 else 0 } := by
  unfold driveBus busValue
  cases winner layout cw with
  | none => simp
  | some o => cases o <;> simp [emit, outputValue] <;> split <;> rfl

/-- The non-halted step for any control word under any layout (41_pipeline_step.md R115): every field of the next state over
the state before. -/
theorem clock_eq (layout : Layout) (cw : ControlWord) (imm : Byte) (s : State) :
    clock layout cw imm s =
      let on := fun sig => asserted layout cw sig
      let r := stepAlu s imm (!on .carryIn)
      let bus := stepBus layout cw imm s
      let pc' := if on .j then s.cpu.xy else s.cpu.pc + 1
      let link := linkValue s.params.rev pc' s.cpu.pc
      { s with
        cpu :=
          { a := if on .ai then bus else s.cpu.a
            b := if on .bi then bus else s.cpu.b
            c := imm
            d := if on .di then bus else s.cpu.d
            g := if on .linkIn then highByte link else s.cpu.g
            h := if on .linkIn then lowByte link else s.cpu.h
            x := if on .xi then bus else if on .xyInc then highByte (s.cpu.xy + 1) else s.cpu.x
            y := if on .yi then bus else if on .xyInc then lowByte (s.cpu.xy + 1) else s.cpu.y
            u := if on .ui then bus else if on .uvInc then highByte (s.cpu.uv + 1) else s.cpu.u
            v := if on .vi then bus else if on .uvInc then lowByte (s.cpu.uv + 1) else s.cpu.v
            aluResult := r.result
            aluFlags := r.flags
            flags := if on .fi then r.flags else s.cpu.flags
            pc := pc'
            pcIf := s.cpu.pc
            ifId := fetch s.params s.cpu.pcIf
            cw := cw
            uptime := s.cpu.uptime + 1 }
        ram := if on .mi then writeByte s.ram (phase2Uv layout cw s.cpu) bus else s.ram
        events := s.events ++ [.fetch s.cpu.pcIf]
          ++ (match winner layout cw with
            | some .mo => [.memRead s.cpu.uv bus]
            | some .po => [.periphLoad s.cpu.d s.cpu.uv bus]
            | _ => [])
          ++ (if on .j then [.willJump s.cpu.xy] else [])
          ++ (if on .mi then [.memWrite (phase2Uv layout cw s.cpu) bus] else [])
          ++ (if on .pi then [.periphStore s.cpu.d (phase2Uv layout cw s.cpu) bus] else [])
        periphDraws := s.periphDraws +
          if winner layout cw = some .po ∧ slotOccupied s.params s.cpu.d = true then 1 else 0 } := by
  have huv : ∀ p : ProcessorState, phase2Uv layout cw p =
      pairOf (if asserted layout cw .uvInc then highByte (p.uv + 1) else p.u)
        (if asserted layout cw .uvInc then lowByte (p.uv + 1) else p.v) := by
    intro p; unfold phase2Uv; split <;> simp [ProcessorState.uv]
  have hb : busValue layout cw (beforeBus layout cw imm s) = stepBus layout cw imm s := rfl
  simp only [clock, afterBus, registerClock, latchRegisters_eq, onSignal_mi, onSignal_pi, onSignal_linkIn, onSignal_fi,
    onSignal_xyInc, onSignal_uvInc, advancePc_eq, driveBus_eq, tick, hb, huv]
  rfl

end Sys2Proof.Machine
end

