-- ==== Sys2Proof/Laws/PerInstr.lean ====
section
/-! SUPPORT. Facts about each instruction as syntax: its word carries its opcode in the upper byte and its immediate in the
lower byte, and its opcode is a programmed one. -/

namespace Sys2Proof.Laws

open Sys2Proof.Safety

/-- The word of an instruction holds its opcode and its immediate in their fields (30_encoding.md R54), and the opcode is
none of those that 45_reference_microcode.md R209 leaves unprogrammed. -/
def WordFields.Statement (i : Instr) : Prop :=
  opcodeField (encode i) = opcodeOf i ∧ immediateField (encode i) = immediateOf i ∧ isUnprogrammed (opcodeOf i) = false

theorem WordFields.opcodeField_instrWord (opcode imm : Byte) : opcodeField (instrWord opcode imm) = opcode := by
  apply BitVec.eq_of_getLsbD_eq
  intro i hi
  rw [opcodeField, BitVec.getLsbD_extractLsb', instrWord]
  show (decide (i < 8) && (opcode ++ imm : BitVec (8 + 8)).getLsbD (8 + i)) = _
  rw [BitVec.getLsbD_append]
  simp [hi]

theorem WordFields.immediateField_instrWord (opcode imm : Byte) : immediateField (instrWord opcode imm) = imm := by
  apply BitVec.eq_of_getLsbD_eq
  intro i hi
  rw [immediateField, BitVec.getLsbD_extractLsb', instrWord]
  show (decide (i < 8) && (opcode ++ imm : BitVec (8 + 8)).getLsbD (0 + i)) = _
  rw [BitVec.getLsbD_append]
  simp [hi]

theorem WordFields.of_programmed {i : Instr} (h : isUnprogrammed (opcodeOf i) = false) : WordFields.Statement i :=
  ⟨WordFields.opcodeField_instrWord _ _, WordFields.immediateField_instrWord _ _, h⟩

theorem WordFields.nop (imm : Byte) : WordFields.Statement (.nop imm) := WordFields.of_programmed rfl
theorem WordFields.hlt (imm : Byte) : WordFields.Statement (.hlt imm) := WordFields.of_programmed rfl
theorem WordFields.movAA (imm : Byte) : WordFields.Statement (.movAA imm) := WordFields.of_programmed rfl
theorem WordFields.movAB (imm : Byte) : WordFields.Statement (.movAB imm) := WordFields.of_programmed rfl
theorem WordFields.movAC (imm : Byte) : WordFields.Statement (.movAC imm) := WordFields.of_programmed rfl
theorem WordFields.movAX (imm : Byte) : WordFields.Statement (.movAX imm) := WordFields.of_programmed rfl
theorem WordFields.movAY (imm : Byte) : WordFields.Statement (.movAY imm) := WordFields.of_programmed rfl
theorem WordFields.movAU (imm : Byte) : WordFields.Statement (.movAU imm) := WordFields.of_programmed rfl
theorem WordFields.movAV (imm : Byte) : WordFields.Statement (.movAV imm) := WordFields.of_programmed rfl
theorem WordFields.movAM (imm : Byte) : WordFields.Statement (.movAM imm) := WordFields.of_programmed rfl
theorem WordFields.movAP (imm : Byte) : WordFields.Statement (.movAP imm) := WordFields.of_programmed rfl
theorem WordFields.movAG (imm : Byte) : WordFields.Statement (.movAG imm) := WordFields.of_programmed rfl
theorem WordFields.movAH (imm : Byte) : WordFields.Statement (.movAH imm) := WordFields.of_programmed rfl
theorem WordFields.movAE (imm : Byte) : WordFields.Statement (.movAE imm) := WordFields.of_programmed rfl
theorem WordFields.movBA (imm : Byte) : WordFields.Statement (.movBA imm) := WordFields.of_programmed rfl
theorem WordFields.movBB (imm : Byte) : WordFields.Statement (.movBB imm) := WordFields.of_programmed rfl
theorem WordFields.movBC (imm : Byte) : WordFields.Statement (.movBC imm) := WordFields.of_programmed rfl
theorem WordFields.movBX (imm : Byte) : WordFields.Statement (.movBX imm) := WordFields.of_programmed rfl
theorem WordFields.movBY (imm : Byte) : WordFields.Statement (.movBY imm) := WordFields.of_programmed rfl
theorem WordFields.movBU (imm : Byte) : WordFields.Statement (.movBU imm) := WordFields.of_programmed rfl
theorem WordFields.movBV (imm : Byte) : WordFields.Statement (.movBV imm) := WordFields.of_programmed rfl
theorem WordFields.movBM (imm : Byte) : WordFields.Statement (.movBM imm) := WordFields.of_programmed rfl
theorem WordFields.movBP (imm : Byte) : WordFields.Statement (.movBP imm) := WordFields.of_programmed rfl
theorem WordFields.movBG (imm : Byte) : WordFields.Statement (.movBG imm) := WordFields.of_programmed rfl
theorem WordFields.movBH (imm : Byte) : WordFields.Statement (.movBH imm) := WordFields.of_programmed rfl
theorem WordFields.movBE (imm : Byte) : WordFields.Statement (.movBE imm) := WordFields.of_programmed rfl
theorem WordFields.movDA (imm : Byte) : WordFields.Statement (.movDA imm) := WordFields.of_programmed rfl
theorem WordFields.movDB (imm : Byte) : WordFields.Statement (.movDB imm) := WordFields.of_programmed rfl
theorem WordFields.movDC (imm : Byte) : WordFields.Statement (.movDC imm) := WordFields.of_programmed rfl
theorem WordFields.movDX (imm : Byte) : WordFields.Statement (.movDX imm) := WordFields.of_programmed rfl
theorem WordFields.movDY (imm : Byte) : WordFields.Statement (.movDY imm) := WordFields.of_programmed rfl
theorem WordFields.movDU (imm : Byte) : WordFields.Statement (.movDU imm) := WordFields.of_programmed rfl
theorem WordFields.movDV (imm : Byte) : WordFields.Statement (.movDV imm) := WordFields.of_programmed rfl
theorem WordFields.movDM (imm : Byte) : WordFields.Statement (.movDM imm) := WordFields.of_programmed rfl
theorem WordFields.movDP (imm : Byte) : WordFields.Statement (.movDP imm) := WordFields.of_programmed rfl
theorem WordFields.movDG (imm : Byte) : WordFields.Statement (.movDG imm) := WordFields.of_programmed rfl
theorem WordFields.movDH (imm : Byte) : WordFields.Statement (.movDH imm) := WordFields.of_programmed rfl
theorem WordFields.movDE (imm : Byte) : WordFields.Statement (.movDE imm) := WordFields.of_programmed rfl
theorem WordFields.movXA (imm : Byte) : WordFields.Statement (.movXA imm) := WordFields.of_programmed rfl
theorem WordFields.movXB (imm : Byte) : WordFields.Statement (.movXB imm) := WordFields.of_programmed rfl
theorem WordFields.movXC (imm : Byte) : WordFields.Statement (.movXC imm) := WordFields.of_programmed rfl
theorem WordFields.movXX (imm : Byte) : WordFields.Statement (.movXX imm) := WordFields.of_programmed rfl
theorem WordFields.movXY (imm : Byte) : WordFields.Statement (.movXY imm) := WordFields.of_programmed rfl
theorem WordFields.movXU (imm : Byte) : WordFields.Statement (.movXU imm) := WordFields.of_programmed rfl
theorem WordFields.movXV (imm : Byte) : WordFields.Statement (.movXV imm) := WordFields.of_programmed rfl
theorem WordFields.movXM (imm : Byte) : WordFields.Statement (.movXM imm) := WordFields.of_programmed rfl
theorem WordFields.movXP (imm : Byte) : WordFields.Statement (.movXP imm) := WordFields.of_programmed rfl
theorem WordFields.movXG (imm : Byte) : WordFields.Statement (.movXG imm) := WordFields.of_programmed rfl
theorem WordFields.movXH (imm : Byte) : WordFields.Statement (.movXH imm) := WordFields.of_programmed rfl
theorem WordFields.movXE (imm : Byte) : WordFields.Statement (.movXE imm) := WordFields.of_programmed rfl
theorem WordFields.movYA (imm : Byte) : WordFields.Statement (.movYA imm) := WordFields.of_programmed rfl
theorem WordFields.movYB (imm : Byte) : WordFields.Statement (.movYB imm) := WordFields.of_programmed rfl
theorem WordFields.movYC (imm : Byte) : WordFields.Statement (.movYC imm) := WordFields.of_programmed rfl
theorem WordFields.movYX (imm : Byte) : WordFields.Statement (.movYX imm) := WordFields.of_programmed rfl
theorem WordFields.movYY (imm : Byte) : WordFields.Statement (.movYY imm) := WordFields.of_programmed rfl
theorem WordFields.movYU (imm : Byte) : WordFields.Statement (.movYU imm) := WordFields.of_programmed rfl
theorem WordFields.movYV (imm : Byte) : WordFields.Statement (.movYV imm) := WordFields.of_programmed rfl
theorem WordFields.movYM (imm : Byte) : WordFields.Statement (.movYM imm) := WordFields.of_programmed rfl
theorem WordFields.movYP (imm : Byte) : WordFields.Statement (.movYP imm) := WordFields.of_programmed rfl
theorem WordFields.movYG (imm : Byte) : WordFields.Statement (.movYG imm) := WordFields.of_programmed rfl
theorem WordFields.movYH (imm : Byte) : WordFields.Statement (.movYH imm) := WordFields.of_programmed rfl
theorem WordFields.movYE (imm : Byte) : WordFields.Statement (.movYE imm) := WordFields.of_programmed rfl
theorem WordFields.movUA (imm : Byte) : WordFields.Statement (.movUA imm) := WordFields.of_programmed rfl
theorem WordFields.movUB (imm : Byte) : WordFields.Statement (.movUB imm) := WordFields.of_programmed rfl
theorem WordFields.movUC (imm : Byte) : WordFields.Statement (.movUC imm) := WordFields.of_programmed rfl
theorem WordFields.movUX (imm : Byte) : WordFields.Statement (.movUX imm) := WordFields.of_programmed rfl
theorem WordFields.movUY (imm : Byte) : WordFields.Statement (.movUY imm) := WordFields.of_programmed rfl
theorem WordFields.movUU (imm : Byte) : WordFields.Statement (.movUU imm) := WordFields.of_programmed rfl
theorem WordFields.movUV (imm : Byte) : WordFields.Statement (.movUV imm) := WordFields.of_programmed rfl
theorem WordFields.movUM (imm : Byte) : WordFields.Statement (.movUM imm) := WordFields.of_programmed rfl
theorem WordFields.movUP (imm : Byte) : WordFields.Statement (.movUP imm) := WordFields.of_programmed rfl
theorem WordFields.movUG (imm : Byte) : WordFields.Statement (.movUG imm) := WordFields.of_programmed rfl
theorem WordFields.movUH (imm : Byte) : WordFields.Statement (.movUH imm) := WordFields.of_programmed rfl
theorem WordFields.movUE (imm : Byte) : WordFields.Statement (.movUE imm) := WordFields.of_programmed rfl
theorem WordFields.movVA (imm : Byte) : WordFields.Statement (.movVA imm) := WordFields.of_programmed rfl
theorem WordFields.movVB (imm : Byte) : WordFields.Statement (.movVB imm) := WordFields.of_programmed rfl
theorem WordFields.movVC (imm : Byte) : WordFields.Statement (.movVC imm) := WordFields.of_programmed rfl
theorem WordFields.movVX (imm : Byte) : WordFields.Statement (.movVX imm) := WordFields.of_programmed rfl
theorem WordFields.movVY (imm : Byte) : WordFields.Statement (.movVY imm) := WordFields.of_programmed rfl
theorem WordFields.movVU (imm : Byte) : WordFields.Statement (.movVU imm) := WordFields.of_programmed rfl
theorem WordFields.movVV (imm : Byte) : WordFields.Statement (.movVV imm) := WordFields.of_programmed rfl
theorem WordFields.movVM (imm : Byte) : WordFields.Statement (.movVM imm) := WordFields.of_programmed rfl
theorem WordFields.movVP (imm : Byte) : WordFields.Statement (.movVP imm) := WordFields.of_programmed rfl
theorem WordFields.movVG (imm : Byte) : WordFields.Statement (.movVG imm) := WordFields.of_programmed rfl
theorem WordFields.movVH (imm : Byte) : WordFields.Statement (.movVH imm) := WordFields.of_programmed rfl
theorem WordFields.movVE (imm : Byte) : WordFields.Statement (.movVE imm) := WordFields.of_programmed rfl
theorem WordFields.movMA (imm : Byte) : WordFields.Statement (.movMA imm) := WordFields.of_programmed rfl
theorem WordFields.movMB (imm : Byte) : WordFields.Statement (.movMB imm) := WordFields.of_programmed rfl
theorem WordFields.movMC (imm : Byte) : WordFields.Statement (.movMC imm) := WordFields.of_programmed rfl
theorem WordFields.movMX (imm : Byte) : WordFields.Statement (.movMX imm) := WordFields.of_programmed rfl
theorem WordFields.movMY (imm : Byte) : WordFields.Statement (.movMY imm) := WordFields.of_programmed rfl
theorem WordFields.movMU (imm : Byte) : WordFields.Statement (.movMU imm) := WordFields.of_programmed rfl
theorem WordFields.movMV (imm : Byte) : WordFields.Statement (.movMV imm) := WordFields.of_programmed rfl
theorem WordFields.movMM (imm : Byte) : WordFields.Statement (.movMM imm) := WordFields.of_programmed rfl
theorem WordFields.movMP (imm : Byte) : WordFields.Statement (.movMP imm) := WordFields.of_programmed rfl
theorem WordFields.movMG (imm : Byte) : WordFields.Statement (.movMG imm) := WordFields.of_programmed rfl
theorem WordFields.movMH (imm : Byte) : WordFields.Statement (.movMH imm) := WordFields.of_programmed rfl
theorem WordFields.movME (imm : Byte) : WordFields.Statement (.movME imm) := WordFields.of_programmed rfl
theorem WordFields.movPA (imm : Byte) : WordFields.Statement (.movPA imm) := WordFields.of_programmed rfl
theorem WordFields.movPB (imm : Byte) : WordFields.Statement (.movPB imm) := WordFields.of_programmed rfl
theorem WordFields.movPC (imm : Byte) : WordFields.Statement (.movPC imm) := WordFields.of_programmed rfl
theorem WordFields.movPX (imm : Byte) : WordFields.Statement (.movPX imm) := WordFields.of_programmed rfl
theorem WordFields.movPY (imm : Byte) : WordFields.Statement (.movPY imm) := WordFields.of_programmed rfl
theorem WordFields.movPU (imm : Byte) : WordFields.Statement (.movPU imm) := WordFields.of_programmed rfl
theorem WordFields.movPV (imm : Byte) : WordFields.Statement (.movPV imm) := WordFields.of_programmed rfl
theorem WordFields.movPM (imm : Byte) : WordFields.Statement (.movPM imm) := WordFields.of_programmed rfl
theorem WordFields.movPP (imm : Byte) : WordFields.Statement (.movPP imm) := WordFields.of_programmed rfl
theorem WordFields.movPG (imm : Byte) : WordFields.Statement (.movPG imm) := WordFields.of_programmed rfl
theorem WordFields.movPH (imm : Byte) : WordFields.Statement (.movPH imm) := WordFields.of_programmed rfl
theorem WordFields.movPE (imm : Byte) : WordFields.Statement (.movPE imm) := WordFields.of_programmed rfl
theorem WordFields.aluA (imm : Byte) : WordFields.Statement (.aluA imm) := WordFields.of_programmed rfl
theorem WordFields.aluB (imm : Byte) : WordFields.Statement (.aluB imm) := WordFields.of_programmed rfl
theorem WordFields.aluD (imm : Byte) : WordFields.Statement (.aluD imm) := WordFields.of_programmed rfl
theorem WordFields.aluX (imm : Byte) : WordFields.Statement (.aluX imm) := WordFields.of_programmed rfl
theorem WordFields.aluY (imm : Byte) : WordFields.Statement (.aluY imm) := WordFields.of_programmed rfl
theorem WordFields.aluU (imm : Byte) : WordFields.Statement (.aluU imm) := WordFields.of_programmed rfl
theorem WordFields.aluV (imm : Byte) : WordFields.Statement (.aluV imm) := WordFields.of_programmed rfl
theorem WordFields.aluM (imm : Byte) : WordFields.Statement (.aluM imm) := WordFields.of_programmed rfl
theorem WordFields.aluP (imm : Byte) : WordFields.Statement (.aluP imm) := WordFields.of_programmed rfl
theorem WordFields.alucA (imm : Byte) : WordFields.Statement (.alucA imm) := WordFields.of_programmed rfl
theorem WordFields.alucB (imm : Byte) : WordFields.Statement (.alucB imm) := WordFields.of_programmed rfl
theorem WordFields.alucD (imm : Byte) : WordFields.Statement (.alucD imm) := WordFields.of_programmed rfl
theorem WordFields.alucX (imm : Byte) : WordFields.Statement (.alucX imm) := WordFields.of_programmed rfl
theorem WordFields.alucY (imm : Byte) : WordFields.Statement (.alucY imm) := WordFields.of_programmed rfl
theorem WordFields.alucU (imm : Byte) : WordFields.Statement (.alucU imm) := WordFields.of_programmed rfl
theorem WordFields.alucV (imm : Byte) : WordFields.Statement (.alucV imm) := WordFields.of_programmed rfl
theorem WordFields.alucM (imm : Byte) : WordFields.Statement (.alucM imm) := WordFields.of_programmed rfl
theorem WordFields.alucP (imm : Byte) : WordFields.Statement (.alucP imm) := WordFields.of_programmed rfl
theorem WordFields.cmp (imm : Byte) : WordFields.Statement (.cmp imm) := WordFields.of_programmed rfl
theorem WordFields.cmpc (imm : Byte) : WordFields.Statement (.cmpc imm) := WordFields.of_programmed rfl
theorem WordFields.jmp (imm : Byte) : WordFields.Statement (.jmp imm) := WordFields.of_programmed rfl
theorem WordFields.jc (imm : Byte) : WordFields.Statement (.jc imm) := WordFields.of_programmed rfl
theorem WordFields.jnc (imm : Byte) : WordFields.Statement (.jnc imm) := WordFields.of_programmed rfl
theorem WordFields.je (imm : Byte) : WordFields.Statement (.je imm) := WordFields.of_programmed rfl
theorem WordFields.jne (imm : Byte) : WordFields.Statement (.jne imm) := WordFields.of_programmed rfl
theorem WordFields.link (imm : Byte) : WordFields.Statement (.link imm) := WordFields.of_programmed rfl
theorem WordFields.jalr (imm : Byte) : WordFields.Statement (.jalr imm) := WordFields.of_programmed rfl
theorem WordFields.inxy (imm : Byte) : WordFields.Statement (.inxy imm) := WordFields.of_programmed rfl
theorem WordFields.inuv (imm : Byte) : WordFields.Statement (.inuv imm) := WordFields.of_programmed rfl
theorem WordFields.ldai (imm : Byte) : WordFields.Statement (.ldai imm) := WordFields.of_programmed rfl
theorem WordFields.stai (imm : Byte) : WordFields.Statement (.stai imm) := WordFields.of_programmed rfl

/-- The immediate of a decoded instruction is the word's. -/
theorem immediateOf_decodeBytes {opcode imm : Byte} {i : Instr} (h : decodeBytes opcode imm = .ok i) :
    immediateOf i = imm := by
  unfold decodeBytes at h
  split at h <;> cases h <;> rfl

end Sys2Proof.Laws
end

