-- ==== Sys2Proof/Laws/Exec.lean ====
section
/-! SUPPORT. What an instruction's meaning and an interpreter step can do: an instruction is the step of one control word, made
of the signals its rule names. -/

namespace Sys2Proof.Machine

open Sys2Proof.Safety

/-- An entry of a table made entry by entry. -/
@[simp] theorem loadEntry_tableOfEntries (entry : Nat → ControlWord) (a : BitVec 10) :
    loadEntry (tableOfEntries entry) a = entry a.toNat := by
  simp [loadEntry, tableOfEntries]

/-- A list makes a table exactly where it has the capacity, and its entries are then the table's. -/
theorem tableOfList_eq_some {entries : List ControlWord} {table : DecoderTable} :
    tableOfList entries = some table ↔
      1024 ≤ entries.length ∧ table = tableOfEntries fun i => entries.getD i defaultControlWord := by
  simp [tableOfList, tableOk, eq_comm]

/-- Every meaning is the step of a set of signals under the reference layout, with the instruction's own immediate; the set
depends on the latched flags alone. -/
theorem exec_eq_clock (i : Instr) :
    ∃ sigs : Flags → List Signal, ∀ s,
      exec i s = .next (clock Layout.reference (controlWord (sigs s.cpu.flags)) (immediateOf i) s) := by
  cases i
  case jc => exact ⟨fun f => if f.carry then [.j] else [], fun _ => rfl⟩
  case jnc => exact ⟨fun f => if !f.carry then [.j] else [], fun _ => rfl⟩
  case je => exact ⟨fun f => if f.equal then [.j] else [], fun _ => rfl⟩
  case jne => exact ⟨fun f => if !f.equal then [.j] else [], fun _ => rfl⟩
  all_goals exact ⟨fun _ => _, fun _ => rfl⟩

/-- A non-halted interpreter step is the step of one control word under the machine's layout. -/
theorem runIfId_eq_clock (s : State) :
    ∃ cw : ControlWord, runIfId s = .next (clock s.layout cw s.cpu.ifId.immediate s) := by
  unfold runIfId State.layout
  cases hm : s.params.microcode with
  | image layout table => exact ⟨_, rfl⟩
  | reference =>
    simp only [Microcode.layout]
    cases hd : decodeBytes s.cpu.ifId.opcode s.cpu.ifId.immediate with
    | error e => cases e; exact ⟨_, rfl⟩
    | ok i =>
      obtain ⟨sigs, h⟩ := exec_eq_clock i
      refine ⟨controlWord (sigs s.cpu.flags), ?_⟩
      show exec i s = _
      rw [h, Laws.immediateOf_decodeBytes hd]

/-- What an interpreter step can do, whole: an inert step, or the step of a control word under the machine's layout. -/
theorem interpStep_cases {s t : State} (h : interpStep s = .next t) :
    (s.isHalted = true ∧ t = inert s) ∨
    (s.isHalted = false ∧ ∃ cw, t = clock s.layout cw s.cpu.ifId.immediate s) := by
  unfold interpStep at h
  split at h
  · rename_i hh; exact .inl ⟨hh, by cases h; rfl⟩
  · rename_i hh
    obtain ⟨cw, hc⟩ := runIfId_eq_clock s
    rw [hc] at h
    exact .inr ⟨by simpa using hh, cw, by cases h; rfl⟩

/-- Which control word an interpreter step runs depends on the core and the parameters alone: two states that agree on them both
make an inert step, or both make the step of one control word. -/
theorem interpStep_congr {s s' : State} (hc : s'.cpu = s.cpu) (hp : s'.params = s.params) :
    (s.isHalted = true ∧ interpStep s = .next (inert s) ∧ interpStep s' = .next (inert s')) ∨
    (s.isHalted = false ∧ ∃ cw, interpStep s = .next (clock s.layout cw s.cpu.ifId.immediate s) ∧
      interpStep s' = .next (clock s.layout cw s.cpu.ifId.immediate s')) := by
  have hl : s'.layout = s.layout := by rw [State.layout, hp, State.layout]
  have hh : s'.isHalted = s.isHalted := by rw [State.isHalted, hl, hc, State.isHalted]
  cases hs : s.isHalted with
  | true =>
    rw [hs] at hh
    exact .inl ⟨rfl, by rw [interpStep, if_pos hs], by rw [interpStep, if_pos hh]⟩
  | false =>
    rw [hs] at hh
    refine .inr ⟨rfl, ?_⟩
    rw [interpStep, if_neg (by simp [hs]), interpStep, if_neg (by simp [hh]), runIfId, runIfId, hc, hp, State.layout]
    cases s.params.microcode with
    | image layout table => exact ⟨_, rfl, rfl⟩
    | reference =>
      simp only [Microcode.layout]
      cases hd : decodeBytes s.cpu.ifId.opcode s.cpu.ifId.immediate with
      | error e => cases e; exact ⟨_, rfl, rfl⟩
      | ok i =>
        obtain ⟨sigs, h⟩ := exec_eq_clock i
        exact ⟨controlWord (sigs s.cpu.flags), by simp only [h, Laws.immediateOf_decodeBytes hd],
          by simp only [h, hc, Laws.immediateOf_decodeBytes hd]⟩

/-- An interpreter step always has a next state. -/
theorem interpStep_next (s : State) : ∃ t, interpStep s = .next t := by
  unfold interpStep
  split
  · exact ⟨_, rfl⟩
  · obtain ⟨cw, hc⟩ := runIfId_eq_clock s
    exact ⟨_, hc⟩

/-- The fields of the state that belong to the VM, and no interpreter step touches. -/
theorem interpStep_vm {s t : State} (h : interpStep s = .next t) :
    t = { t with
      mode := s.mode, cache := s.cache, hits := s.hits, hotCandidate := s.hotCandidate, skipExec := s.skipExec
      log := s.log, params := s.params, lastError := s.lastError, cancelDraws := s.cancelDraws } := by
  rcases interpStep_cases h with ⟨-, rfl⟩ | ⟨-, cw, rfl⟩
  · rfl
  · rw [clock_eq]

end Sys2Proof.Machine
end

