-- ==== Sys2Proof/Laws/Vm.lean ====
section
/-! SUPPORT. What the parts of a VM step can do: snapshots, the executor's checks and loop, the end of a replay, an ordinary
step. Each lemma says which fields a part may change. -/

namespace Sys2Proof.Machine

/-! ### Snapshots and checks -/

theorem logSnapshot_eq (s : State) :
    logSnapshot s = { s with log := if s.params.capture then s.log ++ [s.cpu] else s.log } := by
  unfold logSnapshot; split <;> rfl

theorem relogSnapshot_eq (s : State) :
    relogSnapshot s = { s with log := if s.params.capture then s.log.dropLast ++ [s.cpu] else s.log } := by
  unfold relogSnapshot; split <;> rfl

/-- The checks draw at most one poll and change nothing else (43_trace_engine.md R181, R182). -/
theorem replayChecks_state (cancel : Nat → Bool) (s : State) :
    (replayChecks cancel s).1 =
      { s with cancelDraws := s.cancelDraws + if s.cpu.ifId.isBreakpoint then 1 else 0 } := by
  unfold replayChecks; simp only; split <;> rfl

/-! ### Interpreter steps with a given fetch -/

/-- A halted step is inert whatever the fetch would answer; a non-halted one is the interpreter's, with if_id replaced. -/
theorem interpStepFetching_cases {a : Instruction} {s t : State} (h : interpStepFetching a s = .next t) :
    (s.isHalted = true ∧ t = inert s) ∨
    (s.isHalted = false ∧ ∃ u, interpStep s = .next u ∧ t = { u with cpu := { u.cpu with ifId := a } }) := by
  unfold interpStepFetching at h
  split at h
  · rename_i hh; exact .inl ⟨hh, by cases h; rfl⟩
  · rename_i hh
    obtain ⟨u, h1, h2⟩ := andThen_eq_next.mp h
    refine .inr ⟨by simpa using hh, u, ?_, by cases h2; rfl⟩
    rw [interpStep, if_neg hh, h1]

theorem interpStepFetching_next (a : Instruction) (s : State) : ∃ t, interpStepFetching a s = .next t := by
  unfold interpStepFetching
  split
  · exact ⟨_, rfl⟩
  · obtain ⟨cw, h⟩ := runIfId_eq_clock s
    exact ⟨_, by rw [h]; rfl⟩

/-! ### What replays and ordinary steps leave alone -/

/-- Two states that agree on what only the VM's own bookkeeping writes. -/
structure SameVm (s t : State) : Prop where
  mode : t.mode = s.mode
  cache : t.cache = s.cache
  hits : t.hits = s.hits
  hotCandidate : t.hotCandidate = s.hotCandidate
  skipExec : t.skipExec = s.skipExec
  params : t.params = s.params
  lastError : t.lastError = s.lastError

theorem SameVm.refl (s : State) : SameVm s s := ⟨rfl, rfl, rfl, rfl, rfl, rfl, rfl⟩

theorem SameVm.trans {s t u : State} (h : SameVm s t) (k : SameVm t u) : SameVm s u :=
  ⟨k.mode.trans h.mode, k.cache.trans h.cache, k.hits.trans h.hits, k.hotCandidate.trans h.hotCandidate,
    k.skipExec.trans h.skipExec, k.params.trans h.params, k.lastError.trans h.lastError⟩

theorem SameVm.ofInterpStep {s t : State} (h : interpStep s = .next t) : SameVm s t := by
  rw [interpStep_vm h]; exact ⟨rfl, rfl, rfl, rfl, rfl, rfl, rfl⟩

theorem SameVm.ofInterpStepFetching {a : Instruction} {s t : State} (h : interpStepFetching a s = .next t) :
    SameVm s t := by
  rcases interpStepFetching_cases h with ⟨-, rfl⟩ | ⟨-, u, hu, rfl⟩
  · exact ⟨rfl, rfl, rfl, rfl, rfl, rfl, rfl⟩
  · have := SameVm.ofInterpStep hu
    exact ⟨this.mode, this.cache, this.hits, this.hotCandidate, this.skipExec, this.params, this.lastError⟩

theorem SameVm.ofLogSnapshot (s : State) : SameVm s (logSnapshot s) := by
  rw [logSnapshot_eq]; exact ⟨rfl, rfl, rfl, rfl, rfl, rfl, rfl⟩

/-! ### The executor's loop -/

/-- One turn of the loop, as a choice between its four ends and the next turn (43_trace_engine.md R188). -/
theorem replayLoop_cases {cancel : Nat → Bool} {t : Trace} {fuel i : Nat} {s : State} {r : Replay}
    (h : replayLoop cancel t fuel i s = .next r) :
    let s1 := (replayChecks cancel s).1
    ((replayChecks cancel s).2 = true ∧
      r = { state := bail s1.cpu.ifId.pc s1, result := .bailed s1.cpu.ifId.pc, steps := i }) ∨
    ((replayChecks cancel s).2 = false ∧ fuel = 0 ∧ r = { state := s1, result := .ceiling, steps := i }) ∨
    ((replayChecks cancel s).2 = false ∧ ∃ f s2, fuel = f + 1 ∧
      interpStepFetching (replayFetch t i s1.cpu.pcIf) s1 = .next s2 ∧
      (((logSnapshot s2).isHalted = true ∧ r = { state := logSnapshot s2, result := .halted, steps := i + 1 }) ∨
       ((logSnapshot s2).isHalted = false ∧ replayLoop cancel t f (i + 1) (logSnapshot s2) = .next r))) := by
  intro s1
  rw [replayLoop.eq_def] at h
  simp only at h
  cases hb : (replayChecks cancel s).2
  · rw [hb] at h
    simp only [Bool.false_eq_true, if_false] at h
    cases fuel with
    | zero => cases h; exact .inr (.inl ⟨rfl, rfl, rfl⟩)
    | succ f =>
      obtain ⟨s2, h1, h2⟩ := andThen_eq_next.mp h
      refine .inr (.inr ⟨rfl, f, s2, rfl, h1, ?_⟩)
      cases hh : (logSnapshot s2).isHalted
      · rw [hh] at h2; exact .inr ⟨rfl, by simpa using h2⟩
      · rw [hh] at h2; exact .inl ⟨rfl, by cases h2; rfl⟩
  · rw [hb] at h
    simp only [if_true] at h
    cases h
    exact .inl ⟨rfl, rfl⟩

/-- The loop always ends: by a bail, a halt or the ceiling. -/
theorem replayLoop_next (cancel : Nat → Bool) (t : Trace) (fuel : Nat) :
    ∀ (i : Nat) (s : State), ∃ r, replayLoop cancel t fuel i s = .next r := by
  induction fuel with
  | zero =>
    intro i s
    rw [replayLoop.eq_def]; simp only
    split <;> exact ⟨_, rfl⟩
  | succ f ih =>
    intro i s
    rw [replayLoop.eq_def]; simp only
    split
    · exact ⟨_, rfl⟩
    · obtain ⟨u, hu⟩ := interpStepFetching_next (replayFetch t i (replayChecks cancel s).1.cpu.pcIf) (replayChecks cancel s).1
      rw [hu, andThen_next]
      split
      · exact ⟨_, rfl⟩
      · exact ih _ _

/-- The loop leaves the VM's bookkeeping alone. -/
theorem SameVm.ofReplayLoop {cancel : Nat → Bool} {t : Trace} {fuel : Nat} :
    ∀ {i : Nat} {s : State} {r : Replay}, replayLoop cancel t fuel i s = .next r → SameVm s r.state := by
  induction fuel with
  | zero =>
    intro i s r h
    rcases replayLoop_cases h with ⟨-, rfl⟩ | ⟨-, -, rfl⟩ | ⟨-, f, -, hf, -⟩
    · rw [replayChecks_state]; exact ⟨rfl, rfl, rfl, rfl, rfl, rfl, rfl⟩
    · rw [replayChecks_state]; exact ⟨rfl, rfl, rfl, rfl, rfl, rfl, rfl⟩
    · omega
  | succ f ih =>
    intro i s r h
    rcases replayLoop_cases h with ⟨-, rfl⟩ | ⟨-, hf, -⟩ | ⟨-, f', s2, hf, h1, h2⟩
    · rw [replayChecks_state]; exact ⟨rfl, rfl, rfl, rfl, rfl, rfl, rfl⟩
    · omega
    · obtain rfl : f = f' := by omega
      have hs : SameVm s (logSnapshot s2) := by
        refine SameVm.trans ?_ ((SameVm.ofInterpStepFetching h1).trans (SameVm.ofLogSnapshot s2))
        rw [replayChecks_state]; exact ⟨rfl, rfl, rfl, rfl, rfl, rfl, rfl⟩
      rcases h2 with ⟨-, rfl⟩ | ⟨-, h2⟩
      · exact hs
      · exact hs.trans (ih h2)

/-- A replay leaves the VM's bookkeeping alone (44_tracing_vm.md R196: it feeds nothing to the profiler and records nothing). -/
theorem SameVm.ofExecute {cancel : Nat → Bool} {t : Trace} {s : State} {r : Replay} (h : execute cancel t s = .next r) :
    SameVm s r.state :=
  SameVm.trans (t := flush t s) ⟨rfl, rfl, rfl, rfl, rfl, rfl, rfl⟩ (SameVm.ofReplayLoop (by exact h))

/-- After a replay the VM touches the core, the log, `skipExec` and the error alone. -/
theorem afterReplay_frame (r : Replay) :
    (afterReplay r).mode = r.state.mode ∧ (afterReplay r).cache = r.state.cache ∧ (afterReplay r).hits = r.state.hits ∧
    (afterReplay r).hotCandidate = r.state.hotCandidate ∧ (afterReplay r).params = r.state.params ∧
    (afterReplay r).ram = r.state.ram ∧ (afterReplay r).events = r.state.events ∧
    (afterReplay r).periphDraws = r.state.periphDraws ∧ (afterReplay r).cancelDraws = r.state.cancelDraws := by
  unfold afterReplay
  cases r.result with
  | bailed e =>
    simp only
    split
    · exact ⟨rfl, rfl, rfl, rfl, rfl, rfl, rfl, rfl, rfl⟩
    · rw [relogSnapshot_eq]; exact ⟨rfl, rfl, rfl, rfl, rfl, rfl, rfl, rfl, rfl⟩
  | halted =>
    simp only
    split
    · rw [relogSnapshot_eq]; exact ⟨rfl, rfl, rfl, rfl, rfl, rfl, rfl, rfl, rfl⟩
    · exact ⟨rfl, rfl, rfl, rfl, rfl, rfl, rfl, rfl, rfl⟩
  | ceiling => exact ⟨rfl, rfl, rfl, rfl, rfl, rfl, rfl, rfl, rfl⟩

/-! ### Ordinary steps -/

/-- A logged step is an interpreter step and its snapshot. -/
theorem loggedStep_cases {s t : State} (h : loggedStep s = .next t) : ∃ u, interpStep s = .next u ∧ t = logSnapshot u := by
  obtain ⟨u, h1, h2⟩ := andThen_eq_next.mp h
  exact ⟨u, h1, by cases h2; rfl⟩

/-- What the profiler changes after an ordinary step: one count and the hot candidate, on a backward transition (R201). -/
theorem profile_eq (prev : ProcessorState) (s : State) :
    profile prev s =
      { s with
        hits := if s.cpu.ifId.pc < prev.ifId.pc then setHitCount s.hits s.cpu.ifId.pc (hitCount s.hits s.cpu.ifId.pc + 1)
          else s.hits
        hotCandidate := if s.cpu.ifId.pc < prev.ifId.pc ∧ hitCount s.hits s.cpu.ifId.pc + 1 = hotThreshold
          then some s.cpu.ifId.pc else s.hotCandidate } := by
  unfold profile profilerHit
  by_cases h : s.cpu.ifId.pc < prev.ifId.pc <;> simp [h]

/-- What the recorder changes after an ordinary step: the recording, where one runs (R202). -/
theorem recordRetired_eq (prev : ProcessorState) (s : State) :
    recordRetired prev s =
      { s with
        mode := match s.mode with
          | .idle => .idle
          | .recording r => .recording (r.record s.params.microcode prev.ifId prev) } := by
  rcases s with ⟨_, _, mode, _, _, _, _, _, _, _, _, _, _⟩
  cases mode <;> rfl

/-- The bookkeeping after an ordinary step, whole: the hit table, the hot candidate and the mode, and nothing else. -/
theorem afterOrdinary_eq (prev : ProcessorState) (s : State) :
    afterOrdinary prev s =
      { s with
        hits := if s.cpu.ifId.pc < prev.ifId.pc then setHitCount s.hits s.cpu.ifId.pc (hitCount s.hits s.cpu.ifId.pc + 1)
          else s.hits
        hotCandidate := if s.cpu.ifId.pc < prev.ifId.pc ∧ hitCount s.hits s.cpu.ifId.pc + 1 = hotThreshold
          then some s.cpu.ifId.pc else s.hotCandidate
        mode := match s.mode with
          | .idle => .idle
          | .recording r => .recording (r.record s.params.microcode prev.ifId prev) } := by
  rw [afterOrdinary, recordRetired_eq, profile_eq]

/-- An ordinary step is an interpreter step, its snapshot, and the bookkeeping after it. -/
theorem ordinary_cases {prev : ProcessorState} {s t : State} (h : ordinary prev s = .next t) :
    ∃ u, interpStep s = .next u ∧ t = afterOrdinary prev (logSnapshot u) := by
  obtain ⟨v, h1, h2⟩ := andThen_eq_next.mp h
  obtain ⟨u, h3, rfl⟩ := loggedStep_cases h1
  exact ⟨u, h3, by cases h2; rfl⟩

/-- Whether the core is halted does not depend on the VM's bookkeeping. -/
@[simp] theorem beginVmStep_isHalted (s : State) : (beginVmStep s).isHalted = s.isHalted := rfl

end Sys2Proof.Machine
end

