-- ==== Sys2Proof/Laws/Step.lean ====
section
/-! SUPPORT. What one step of the machine can do, whole, and when each case is taken. -/

namespace Sys2Proof.Machine

/-- A halted core takes the plain case (44_tracing_vm.md R194). -/
theorem vmCase_of_halted {s : State} (h : s.isHalted = true) : vmCase s = .plain := by simp [vmCase, h]

/-- A recording is finalized where the core is about to retire its first instruction's pc again (R195). -/
theorem recording_of_vmCase_finalize {s : State} {t : Trace} (h : vmCase s = .finalize t) :
    s.mode = .recording { instrs := t.head :: t.tail } ∧ s.cpu.ifId.pc = t.head.pc := by
  unfold vmCase at h
  split at h
  · cases h
  · unfold tracingCase at h
    cases hm : s.mode with
    | idle => rw [hm] at h; simp only at h; split at h <;> split at h <;> cases h
    | recording r =>
      rw [hm] at h; simp only at h
      obtain ⟨l⟩ := r
      split at h
      · rename_i ha
        cases l with
        | nil => simp [Recorder.finalize] at h
        | cons x l =>
          simp only [Recorder.finalize] at h
          cases h
          exact ⟨rfl, by simpa [Recorder.anchor] using ha.symm⟩
      · cases h

/-- A recording starts in Idle, at a pc that has no trace (R199). -/
theorem idle_of_vmCase_record {s : State} (h : vmCase s = .record) :
    s.mode = .idle ∧ cachedTrace s.cache s.cpu.ifId.pc = none := by
  unfold vmCase at h
  split at h
  · cases h
  · unfold tracingCase at h
    cases hm : s.mode with
    | idle =>
      rw [hm] at h; simp only at h
      split at h
      · split at h <;> cases h
      · rename_i hc; exact ⟨rfl, hc⟩
    | recording r =>
      rw [hm] at h; simp only at h
      split at h
      · split at h <;> cases h
      · cases h

/-- A replay starts in Idle, at a pc whose trace is cached, with trace execution on and the last step no bail without progress
(R192, R198). -/
theorem cached_of_vmCase_replay {s : State} {t : Trace} (h : vmCase s = .replay t) :
    s.mode = .idle ∧ cachedTrace s.cache s.cpu.ifId.pc = some t ∧ s.params.traceExecEnabled = true ∧ s.isHalted = false ∧
      s.skipExec = false := by
  unfold vmCase at h
  split at h
  · cases h
  · rename_i hp
    unfold tracingCase at h
    cases hm : s.mode with
    | idle =>
      rw [hm] at h; simp only at h
      split at h
      · rename_i hc
        split at h
        · rename_i hx
          cases h
          simp only [Bool.and_eq_true, Bool.not_eq_true'] at hx
          exact ⟨rfl, hc, hx.1, by simp at hp; exact hp.2, hx.2⟩
        · cases h
      · split at h <;> cases h
    | recording r =>
      rw [hm] at h; simp only at h
      split at h
      · split at h <;> cases h
      · cases h

/-- What one step of the machine can do, whole (44_tracing_vm.md R192). -/
theorem step_cases {s t : State} (h : step s = .next t) :
    (vmCase s = .plain ∧ loggedStep (beginVmStep s) = .next t) ∨
    (∃ tr, vmCase s = .finalize tr ∧ t = { beginVmStep s with cache := cacheInsert s.cache tr, mode := .idle }) ∨
    (∃ tr r, vmCase s = .replay tr ∧ execute Config.cancelDraw tr (beginVmStep s) = .next r ∧ t = afterReplay r) ∨
    (vmCase s = .record ∧ ordinary s.cpu { beginVmStep s with mode := .recording { instrs := [] } } = .next t) ∨
    (vmCase s = .ordinary ∧ ordinary s.cpu (beginVmStep s) = .next t) := by
  change vmStepWith _ s = _ at h
  unfold vmStepWith at h
  cases hc : vmCase s with
  | plain => rw [hc] at h; exact .inl ⟨rfl, h⟩
  | finalize t => rw [hc] at h; cases h; exact .inr (.inl ⟨_, rfl, rfl⟩)
  | replay t =>
    rw [hc] at h
    obtain ⟨r, h1, h2⟩ := andThen_eq_next.mp h
    cases h2
    exact .inr (.inr (.inl ⟨_, _, rfl, h1, rfl⟩))
  | record => rw [hc] at h; exact .inr (.inr (.inr (.inl ⟨rfl, h⟩)))
  | ordinary => rw [hc] at h; exact .inr (.inr (.inr (.inr ⟨rfl, h⟩)))

/-- What a step of case 4 or 5 does, whole: an interpreter step from the state the case starts from, its snapshot, and the
bookkeeping after it (44_tracing_vm.md R199, R200). -/
theorem step_ordinary_cases {s t : State} (hc : vmCase s = .ordinary ∨ vmCase s = .record) (h : step s = .next t) :
    ∃ s0 u : State, interpStep s0 = .next u ∧ t = afterOrdinary s.cpu (logSnapshot u) ∧
      (vmCase s = .ordinary → s0 = beginVmStep s) ∧
      (vmCase s = .record → s0 = { beginVmStep s with mode := .recording { instrs := [] } }) := by
  rcases step_cases h with ⟨hc', h⟩ | ⟨tr, hc', -⟩ | ⟨tr, r, hc', -, -⟩ | ⟨hc', h⟩ | ⟨hc', h⟩
  · rw [hc'] at hc; rcases hc with hc | hc <;> cases hc
  · rw [hc'] at hc; rcases hc with hc | hc <;> cases hc
  · rw [hc'] at hc; rcases hc with hc | hc <;> cases hc
  · obtain ⟨u, hu, ht⟩ := ordinary_cases h
    exact ⟨_, u, hu, ht, by rw [hc']; nofun, fun _ => rfl⟩
  · obtain ⟨u, hu, ht⟩ := ordinary_cases h
    exact ⟨_, u, hu, ht, fun _ => rfl, by rw [hc']; nofun⟩

end Sys2Proof.Machine
end

