-- ==== Sys2Proof/Tests/Slice0.lean ====
section
/-! SUPPORT. The model's own tests: the checks' smoke tests, the decoding of words written out from the spec's encodings, the
vectors of 95_test_vectors.md, and a witness for every statement with hypotheses. -/

namespace Sys2Proof.Tests

set_option Elab.async false

open Sys2Proof.Machine Sys2Proof.Safety

/-! ### WellFormed: an ill-formed term for each check, which the check refuses -/

/-- A layout that carries `J` on the bit of `HLT` is no layout (00_scope.md R9). -/
theorem test_layout_refused : layoutOk (Layout.reference.set 1 0) = false := by decide +kernel

theorem test_layout_accepted : layoutOk Layout.reference = true := by decide +kernel

/-- 1023 entries are no decoder table, and no VM is constructed from them (60_exceptions.md R364). -/
theorem test_table_refused :
    tableOk (List.replicate 1023 0xFFFFFFFF) = false ∧ tableOfList (List.replicate 1023 0xFFFFFFFF) = none ∧
    constructFromEntries Params.reset Layout.reference (List.replicate 1023 0xFFFFFFFF) [] = .fault .constructionError := by
  have h : tableOk (List.replicate 1023 0xFFFFFFFF) = false := by rw [tableOk, List.length_replicate]; rfl
  have k : tableOfList (List.replicate 1023 0xFFFFFFFF) = none := by rw [tableOfList, h]; rfl
  exact ⟨h, k, by rw [constructFromEntries, k]⟩

theorem test_table_accepted :
    tableOk referenceTable.toList = true ∧ (tableOfList referenceTable.toList).map (loadEntry · 0x2E3) = some 0xFBFFFDDF := by
  decide +kernel

/-- A flags guard never stands alone (43_trace_engine.md R167). -/
theorem test_guard_refused :
    recordedGuardOk [.flags ⟨false, false⟩] = false ∧ guardOk [.flags ⟨false, false⟩] = false := by decide

theorem test_guard_accepted : guardOk [.fail] = true ∧ recordedGuardOk [.fail] = false := by decide

/-- An instruction as a recorder writes it. -/
def ins (opcode imm : Byte) (pc : Addr) (guard : List GuardKind) (bp : Bool) : Instruction :=
  { opcode := opcode, immediate := imm, pc := pc, disassembly := none, guard := guard, isBreakpoint := bp }

/-- A recording is not empty, starts with a breakpoint and has no second one (43_trace_engine.md R177). -/
theorem test_recording_refused :
    recordingOk [] = false ∧ recordingOk [ins 0x00 0x00 8 [] false] = false ∧
    recordingOk [ins 0x00 0x00 8 [] true, ins 0x00 0x00 9 [] true] = false ∧
    recordingOk [ins 0x00 0x00 8 [.fail] true] = false := by decide

/-- A microcode image is refused by its layout (its table has the right size by its type). -/
theorem test_microcode_refused :
    microcodeOk (.image (Layout.reference.set 1 0) referenceTable) = false := by decide +kernel

/-! ### Decoding: every constructor, by a word written out from the spec's encoding (opcode in bits 15:8, immediate in 7:0).
The words are those of 45_reference_microcode.md and 46_reference_moves.md, with an immediate that differs from row to row. -/

theorem test_decode_0x : ∀ p ∈ (
    [(0x000B, .nop 0x0B), (0x0130, .hlt 0x30)] : List (InstrWord × Instr)),
    decode p.1 = .ok p.2 := by decide +kernel

theorem test_decode_1x : ∀ p ∈ (
    [(0x105B, .movAA 0x5B), (0x1180, .movAB 0x80), (0x12A5, .movAC 0xA5), (0x13CA, .movAX 0xCA), (0x14EF, .movAY 0xEF),
     (0x1514, .movAU 0x14), (0x1639, .movAV 0x39), (0x175E, .movAM 0x5E), (0x1883, .movAP 0x83), (0x19A8, .movAG 0xA8),
     (0x1ACD, .movAH 0xCD), (0x1BF2, .movAE 0xF2)] : List (InstrWord × Instr)),
    decode p.1 = .ok p.2 := by decide +kernel

theorem test_decode_2x : ∀ p ∈ (
    [(0x20AB, .movBA 0xAB), (0x21D0, .movBB 0xD0), (0x22F5, .movBC 0xF5), (0x231A, .movBX 0x1A), (0x243F, .movBY 0x3F),
     (0x2564, .movBU 0x64), (0x2689, .movBV 0x89), (0x27AE, .movBM 0xAE), (0x28D3, .movBP 0xD3), (0x29F8, .movBG 0xF8),
     (0x2A1D, .movBH 0x1D), (0x2B42, .movBE 0x42)] : List (InstrWord × Instr)),
    decode p.1 = .ok p.2 := by decide +kernel

theorem test_decode_3x : ∀ p ∈ (
    [(0x30FB, .movDA 0xFB), (0x3120, .movDB 0x20), (0x3245, .movDC 0x45), (0x336A, .movDX 0x6A), (0x348F, .movDY 0x8F),
     (0x35B4, .movDU 0xB4), (0x36D9, .movDV 0xD9), (0x37FE, .movDM 0xFE), (0x3823, .movDP 0x23), (0x3948, .movDG 0x48),
     (0x3A6D, .movDH 0x6D), (0x3B92, .movDE 0x92)] : List (InstrWord × Instr)),
    decode p.1 = .ok p.2 := by decide +kernel

theorem test_decode_4x : ∀ p ∈ (
    [(0x404B, .movXA 0x4B), (0x4170, .movXB 0x70), (0x4295, .movXC 0x95), (0x43BA, .movXX 0xBA), (0x44DF, .movXY 0xDF),
     (0x4504, .movXU 0x04), (0x4629, .movXV 0x29), (0x474E, .movXM 0x4E), (0x4873, .movXP 0x73), (0x4998, .movXG 0x98),
     (0x4ABD, .movXH 0xBD), (0x4BE2, .movXE 0xE2)] : List (InstrWord × Instr)),
    decode p.1 = .ok p.2 := by decide +kernel

theorem test_decode_5x : ∀ p ∈ (
    [(0x509B, .movYA 0x9B), (0x51C0, .movYB 0xC0), (0x52E5, .movYC 0xE5), (0x530A, .movYX 0x0A), (0x542F, .movYY 0x2F),
     (0x5554, .movYU 0x54), (0x5679, .movYV 0x79), (0x579E, .movYM 0x9E), (0x58C3, .movYP 0xC3), (0x59E8, .movYG 0xE8),
     (0x5A0D, .movYH 0x0D), (0x5B32, .movYE 0x32)] : List (InstrWord × Instr)),
    decode p.1 = .ok p.2 := by decide +kernel

theorem test_decode_6x : ∀ p ∈ (
    [(0x60EB, .movUA 0xEB), (0x6110, .movUB 0x10), (0x6235, .movUC 0x35), (0x635A, .movUX 0x5A), (0x647F, .movUY 0x7F),
     (0x65A4, .movUU 0xA4), (0x66C9, .movUV 0xC9), (0x67EE, .movUM 0xEE), (0x6813, .movUP 0x13), (0x6938, .movUG 0x38),
     (0x6A5D, .movUH 0x5D), (0x6B82, .movUE 0x82)] : List (InstrWord × Instr)),
    decode p.1 = .ok p.2 := by decide +kernel

theorem test_decode_7x : ∀ p ∈ (
    [(0x703B, .movVA 0x3B), (0x7160, .movVB 0x60), (0x7285, .movVC 0x85), (0x73AA, .movVX 0xAA), (0x74CF, .movVY 0xCF),
     (0x75F4, .movVU 0xF4), (0x7619, .movVV 0x19), (0x773E, .movVM 0x3E), (0x7863, .movVP 0x63), (0x7988, .movVG 0x88),
     (0x7AAD, .movVH 0xAD), (0x7BD2, .movVE 0xD2)] : List (InstrWord × Instr)),
    decode p.1 = .ok p.2 := by decide +kernel

theorem test_decode_8x : ∀ p ∈ (
    [(0x808B, .movMA 0x8B), (0x81B0, .movMB 0xB0), (0x82D5, .movMC 0xD5), (0x83FA, .movMX 0xFA), (0x841F, .movMY 0x1F),
     (0x8544, .movMU 0x44), (0x8669, .movMV 0x69), (0x878E, .movMM 0x8E), (0x88B3, .movMP 0xB3), (0x89D8, .movMG 0xD8),
     (0x8AFD, .movMH 0xFD), (0x8B22, .movME 0x22)] : List (InstrWord × Instr)),
    decode p.1 = .ok p.2 := by decide +kernel

theorem test_decode_9x : ∀ p ∈ (
    [(0x90DB, .movPA 0xDB), (0x9100, .movPB 0x00), (0x9225, .movPC 0x25), (0x934A, .movPX 0x4A), (0x946F, .movPY 0x6F),
     (0x9594, .movPU 0x94), (0x96B9, .movPV 0xB9), (0x97DE, .movPM 0xDE), (0x9803, .movPP 0x03), (0x9928, .movPG 0x28),
     (0x9A4D, .movPH 0x4D), (0x9B72, .movPE 0x72)] : List (InstrWord × Instr)),
    decode p.1 = .ok p.2 := by decide +kernel

theorem test_decode_Ax : ∀ p ∈ (
    [(0xA02B, .aluA 0x2B), (0xA150, .aluB 0x50), (0xA275, .aluD 0x75), (0xA39A, .aluX 0x9A), (0xA4BF, .aluY 0xBF),
     (0xA5E4, .aluU 0xE4), (0xA609, .aluV 0x09), (0xA72E, .aluM 0x2E), (0xA853, .aluP 0x53)] : List (InstrWord × Instr)),
    decode p.1 = .ok p.2 := by decide +kernel

theorem test_decode_Bx : ∀ p ∈ (
    [(0xB07B, .alucA 0x7B), (0xB1A0, .alucB 0xA0), (0xB2C5, .alucD 0xC5), (0xB3EA, .alucX 0xEA), (0xB40F, .alucY 0x0F),
     (0xB534, .alucU 0x34), (0xB659, .alucV 0x59), (0xB77E, .alucM 0x7E), (0xB8A3, .alucP 0xA3)] : List (InstrWord × Instr)),
    decode p.1 = .ok p.2 := by decide +kernel

theorem test_decode_Cx : ∀ p ∈ (
    [(0xC0CB, .cmp 0xCB), (0xC1F0, .cmpc 0xF0)] : List (InstrWord × Instr)),
    decode p.1 = .ok p.2 := by decide +kernel

theorem test_decode_Dx : ∀ p ∈ (
    [(0xD01B, .jmp 0x1B), (0xD140, .jc 0x40), (0xD265, .jnc 0x65), (0xD38A, .je 0x8A), (0xD4AF, .jne 0xAF),
     (0xD5D4, .link 0xD4), (0xD6F9, .jalr 0xF9)] : List (InstrWord × Instr)),
    decode p.1 = .ok p.2 := by decide +kernel

theorem test_decode_Ex : ∀ p ∈ (
    [(0xE06B, .inxy 0x6B), (0xE190, .inuv 0x90), (0xE2B5, .ldai 0xB5), (0xE3DA, .stai 0xDA)] : List (InstrWord × Instr)),
    decode p.1 = .ok p.2 := by decide +kernel

/-- Unprogrammed opcodes are rejected by name, at the ends of the ranges of R209. -/
theorem test_decode_rejects : ∀ op ∈ ([0x02, 0x0F, 0x1C, 0x9F, 0xA9, 0xBF, 0xC2, 0xD7, 0xE4, 0xFF] : List Byte),
    decodeBytes op 0x55 = .error (.unprogrammed op) := by decide +kernel

theorem test_decodeTableWord : decodeTableWord 16 0x1205 = some (.movAC 0x05) ∧ decodeTableWord 16 0xFF00 = none ∧
    decodeTableWord 8 0x1205 = some (.nop 0x05) := by decide +kernel

/-! ### Control words: the raw values of 95_test_vectors.md 2.3, and decoder addresses of 1.2 -/

theorem test_control_words :
    controlWord [.hlt] = 0xFFFFFFFE ∧ controlWord [.j, .linkIn] = 0xFFFFFFBD ∧
    controlWord [.eo, .ai, .fi] = 0xFFF7EFF7 ∧ controlWord [.eo, .ai, .fi, .carryIn] = 0xFFF7EFF3 ∧
    controlWord [.mo, .ai, .uvInc] = 0xFFF5FFDF ∧ controlWord [.ao, .mi, .uvInc] = 0xFBFFFDDF ∧
    controlWord [.po, .di] = 0xFFDBFFFF ∧ controlWord [.go, .pi] = 0xF7FFFF7F := by decide +kernel

/-- Banks of a ROM image: byte i of bank k is bits 8k+7 to 8k. -/
theorem test_bank_entry : bankEntry [0xDF] [0xFD] [0xFF] [0xFB] 0 = 0xFBFFFDDF := by decide +kernel

theorem test_decoder_addresses :
    decoderAddress ⟨false, false⟩ 0xD4 = 0x0D4 ∧ decoderAddress ⟨false, true⟩ 0xD4 = 0x1D4 ∧
    decoderAddress ⟨true, false⟩ 0xD4 = 0x2D4 ∧ decoderAddress ⟨true, true⟩ 0xFF = 0x3FF := by decide +kernel

theorem test_rom_round_trip :
    loadEntry (storeEntry referenceTable 0x2D4 0x12345678) (decoderAddress ⟨true, false⟩ 0xD4) = 0x12345678 := by
  decide +kernel

/-- The raw words of the moves that the spec prints are those of the signal sets it names. -/
theorem test_move_words : ∀ o ∈ outputOrder, ∀ d ∈ [BusInput.ai, .bi, .di, .xi, .yi, .ui, .vi, .mi, .pi],
    referenceWord (opcodeOf (movInstr o d 0)) ⟨false, true⟩ = controlWord [o.signal, d.signal] := by decide +kernel

/-! ### The ALU: the table of 95_test_vectors.md 2.1 -/

/-- One cell of the table: result, carryFlag, equalFlag. -/
def cell (a b : Byte) (s : BitVec 4) (m cin : Bool) : Byte × Bool × Bool :=
  let r := aluUpdate .asArithmetic a b s m cin
  (r.result, r.flags.carry, r.flags.equal)

/-- The six cells of one row. -/
def row (m : Bool) (s : BitVec 4) : List (Byte × Bool × Bool) :=
  [cell 0xA5 0x5A s m true, cell 0xA5 0x5A s m false, cell 0xFF 0x01 s m true, cell 0xFF 0x01 s m false,
   cell 0x00 0x00 s m true, cell 0x00 0x00 s m false]

/-- A row as the table prints it: for each cell, result * 4 + carryFlag * 2 + equalFlag. -/
def packed (r : List (Byte × Bool × Bool)) : List Nat := r.map fun c => c.1.toNat * 4 + c.2.1.toNat * 2 + c.2.2.toNat

theorem test_alu_logic : (List.range 16).map (fun s => packed (row true (BitVec.ofNat 4 s))) =
    [[0x16A, 0x16A, 0x002, 0x000, 0x3FF, 0x3FF], [0x002, 0x000, 0x002, 0x000, 0x3FF, 0x3FF],
     [0x16A, 0x16A, 0x002, 0x000, 0x002, 0x000], [0x002, 0x000, 0x002, 0x000, 0x002, 0x000],
     [0x3FD, 0x3FD, 0x3F8, 0x3F8, 0x3FF, 0x3FF], [0x294, 0x294, 0x3F8, 0x3F8, 0x3FF, 0x3FF],
     [0x3FD, 0x3FD, 0x3F8, 0x3F8, 0x002, 0x000], [0x294, 0x294, 0x3F8, 0x3F8, 0x002, 0x000],
     [0x16A, 0x16A, 0x004, 0x004, 0x3FF, 0x3FF], [0x002, 0x000, 0x004, 0x004, 0x3FF, 0x3FF],
     [0x16A, 0x16A, 0x004, 0x004, 0x002, 0x000], [0x002, 0x000, 0x004, 0x004, 0x002, 0x000],
     [0x3FD, 0x3FD, 0x3FD, 0x3FD, 0x3FF, 0x3FF], [0x294, 0x294, 0x3FD, 0x3FD, 0x3FF, 0x3FF],
     [0x3FD, 0x3FD, 0x3FD, 0x3FD, 0x002, 0x000], [0x294, 0x294, 0x3FD, 0x3FD, 0x002, 0x000]] := by decide +kernel

theorem test_alu_arithmetic : (List.range 16).map (fun s => packed (row false (BitVec.ofNat 4 s))) =
    [[0x296, 0x29A, 0x3FF, 0x000, 0x002, 0x006], [0x3FF, 0x000, 0x3FF, 0x000, 0x002, 0x006],
     [0x296, 0x29A, 0x3FF, 0x000, 0x3FF, 0x000], [0x3FF, 0x000, 0x3FF, 0x000, 0x3FF, 0x000],
     [0x128, 0x12C, 0x3F4, 0x3F8, 0x002, 0x006], [0x290, 0x294, 0x3F4, 0x3F8, 0x002, 0x006],
     [0x128, 0x12C, 0x3F4, 0x3F8, 0x3FF, 0x000], [0x290, 0x294, 0x3F4, 0x3F8, 0x3FF, 0x000],
     [0x296, 0x29A, 0x000, 0x004, 0x002, 0x006], [0x3FF, 0x000, 0x000, 0x004, 0x002, 0x006],
     [0x296, 0x29A, 0x000, 0x004, 0x3FF, 0x000], [0x3FF, 0x000, 0x000, 0x004, 0x3FF, 0x000],
     [0x128, 0x12C, 0x3F8, 0x3FD, 0x002, 0x006], [0x290, 0x294, 0x3F8, 0x3FD, 0x002, 0x006],
     [0x128, 0x12C, 0x3F8, 0x3FD, 0x3FF, 0x000], [0x290, 0x294, 0x3F8, 0x3FD, 0x3FF, 0x000]] := by decide +kernel

/-- 95_test_vectors.md 2.2: immediate, carry input, A, B, and the cell. -/
theorem test_alu_idioms : ∀ p ∈ (
    [(0x09, true, 0x12, 0x34, 282), (0x09, true, 0xFF, 0x01, 0), (0x09, true, 0x80, 0x80, 0), (0x09, true, 0xFF, 0xFF, 1016),
     (0x09, false, 0x12, 0x34, 286), (0x09, false, 0xFF, 0x00, 0), (0x06, false, 0x05, 0x03, 8), (0x06, false, 0x03, 0x05, 1018),
     (0x06, false, 0x05, 0x05, 0), (0x06, false, 0x00, 0x01, 1023), (0x06, true, 0x03, 0x03, 1023), (0x06, true, 0x02, 0x03, 1018),
     (0x06, true, 0x03, 0x02, 0), (0x06, true, 0x00, 0xFF, 2), (0x00, false, 0x41, 0x00, 266), (0x00, false, 0xFF, 0x00, 0),
     (0x0F, true, 0x41, 0x00, 256), (0x0F, true, 0x00, 0x00, 1023), (0x0F, true, 0x01, 0x00, 0), (0x1B, true, 0xF0, 0x3C, 192),
     (0x1E, true, 0xF0, 0x3C, 1008), (0x16, true, 0xF0, 0x3C, 816), (0x16, true, 0x3C, 0x3C, 2), (0x19, true, 0x3C, 0x3C, 1023),
     (0x19, true, 0x3C, 0x3D, 1018), (0x10, true, 0xF0, 0x00, 62)] :
    List (Byte × Bool × Byte × Byte × Nat)),
    (let r := aluOf .asArithmetic p.2.2.1 p.2.2.2.1 p.1 p.2.1
     r.result.toNat * 4 + r.flags.carry.toNat * 2 + r.flags.equal.toNat) = p.2.2.2.2 := by decide +kernel

/-! ### Every instruction from the start state S2 of 95_test_vectors.md 2.4 -/

/-- S2: about to retire an instruction from 0x0100. -/
def s2 : State :=
  { State.reset with
    cpu := { ProcessorState.reset with
      a := 0xFF, b := 0x01, d := 0x03, g := 0x56, h := 0x34, x := 0x12, y := 0xFF, u := 0xFF, v := 0xFF
      flags := ⟨false, true⟩, pcIf := 0x0101, pc := 0x0102, ifId := ins 0x00 0x00 0x0100 [] false }
    ram := [(0x0000, 0x99), (0xFFFF, 0xC3)]
    params := { Params.reset with occupied := [0x03] } }

/-- What a test looks at: A, B, C, D, G, H, X, Y, U, V; the latched flags; pc; and the events after the fetch. -/
structure View where
  regs : List Byte
  flags : Bool × Bool
  pc : Addr
  events : List Event
deriving DecidableEq, Repr

/-- The view of a state. -/
def view (t : State) : View :=
  { regs := [t.cpu.a, t.cpu.b, t.cpu.c, t.cpu.d, t.cpu.g, t.cpu.h, t.cpu.x, t.cpu.y, t.cpu.u, t.cpu.v]
    flags := (t.cpu.flags.carry, t.cpu.flags.equal), pc := t.cpu.pc, events := t.events.drop 1 }

/-- The view after an instruction at S2, with immediate 0x09. -/
def after (f : Byte → Instr) : Option View :=
  match exec (f 0x09) s2 with
  | .next t => some (view t)
  | _ => none

/-- What the table expects: the registers it lists as changed (by number, A = 0, B = 1, D = 3 to V = 9), flags, pc, events. -/
def want (changed : List (Nat × Byte)) (flags : Bool × Bool) (pc : Addr) (events : List Event) : Option View :=
  some
    { regs := changed.foldl (fun l c => l.set c.1 c.2) [0xFF, 0x01, 0x09, 0x03, 0x56, 0x34, 0x12, 0xFF, 0xFF, 0xFF]
      flags := flags, pc := pc, events := events }

/-- The answer of the device in slot 3: a free value. -/
abbrev answer : Byte := Config.peripheralAnswer 0

theorem test_s2_0x : ∀ p ∈ (
    [(.nop, want [] (false, true) 0x0103 []),
     (.hlt, want [] (false, true) 0x0103 [])] :
    List ((Byte → Instr) × Option View)), after p.1 = p.2 := by decide +kernel

theorem test_s2_1x : ∀ p ∈ (
    [(.movAA, want [] (false, true) 0x0103 []),
     (.movAB, want [(0, 0x01)] (false, true) 0x0103 []),
     (.movAC, want [(0, 0x09)] (false, true) 0x0103 []),
     (.movAX, want [(0, 0x12)] (false, true) 0x0103 []),
     (.movAY, want [] (false, true) 0x0103 []),
     (.movAU, want [] (false, true) 0x0103 []),
     (.movAV, want [] (false, true) 0x0103 []),
     (.movAM, want [(0, 0xC3)] (false, true) 0x0103 [.memRead 0xFFFF 0xC3]),
     (.movAG, want [(0, 0x56)] (false, true) 0x0103 []),
     (.movAH, want [(0, 0x34)] (false, true) 0x0103 []),
     (.movAE, want [(0, 0x00)] (false, true) 0x0103 [])] :
    List ((Byte → Instr) × Option View)), after p.1 = p.2 := by decide +kernel

theorem test_s2_2x : ∀ p ∈ (
    [(.movBA, want [(1, 0xFF)] (false, true) 0x0103 []),
     (.movBB, want [] (false, true) 0x0103 []),
     (.movBC, want [(1, 0x09)] (false, true) 0x0103 []),
     (.movBX, want [(1, 0x12)] (false, true) 0x0103 []),
     (.movBY, want [(1, 0xFF)] (false, true) 0x0103 []),
     (.movBU, want [(1, 0xFF)] (false, true) 0x0103 []),
     (.movBV, want [(1, 0xFF)] (false, true) 0x0103 []),
     (.movBM, want [(1, 0xC3)] (false, true) 0x0103 [.memRead 0xFFFF 0xC3]),
     (.movBG, want [(1, 0x56)] (false, true) 0x0103 []),
     (.movBH, want [(1, 0x34)] (false, true) 0x0103 []),
     (.movBE, want [(1, 0x00)] (false, true) 0x0103 [])] :
    List ((Byte → Instr) × Option View)), after p.1 = p.2 := by decide +kernel

theorem test_s2_3x : ∀ p ∈ (
    [(.movDA, want [(3, 0xFF)] (false, true) 0x0103 []),
     (.movDB, want [(3, 0x01)] (false, true) 0x0103 []),
     (.movDC, want [(3, 0x09)] (false, true) 0x0103 []),
     (.movDX, want [(3, 0x12)] (false, true) 0x0103 []),
     (.movDY, want [(3, 0xFF)] (false, true) 0x0103 []),
     (.movDU, want [(3, 0xFF)] (false, true) 0x0103 []),
     (.movDV, want [(3, 0xFF)] (false, true) 0x0103 []),
     (.movDM, want [(3, 0xC3)] (false, true) 0x0103 [.memRead 0xFFFF 0xC3]),
     (.movDG, want [(3, 0x56)] (false, true) 0x0103 []),
     (.movDH, want [(3, 0x34)] (false, true) 0x0103 []),
     (.movDE, want [(3, 0x00)] (false, true) 0x0103 [])] :
    List ((Byte → Instr) × Option View)), after p.1 = p.2 := by decide +kernel

theorem test_s2_4x : ∀ p ∈ (
    [(.movXA, want [(6, 0xFF)] (false, true) 0x0103 []),
     (.movXB, want [(6, 0x01)] (false, true) 0x0103 []),
     (.movXC, want [(6, 0x09)] (false, true) 0x0103 []),
     (.movXX, want [] (false, true) 0x0103 []),
     (.movXY, want [(6, 0xFF)] (false, true) 0x0103 []),
     (.movXU, want [(6, 0xFF)] (false, true) 0x0103 []),
     (.movXV, want [(6, 0xFF)] (false, true) 0x0103 []),
     (.movXM, want [(6, 0xC3)] (false, true) 0x0103 [.memRead 0xFFFF 0xC3]),
     (.movXG, want [(6, 0x56)] (false, true) 0x0103 []),
     (.movXH, want [(6, 0x34)] (false, true) 0x0103 []),
     (.movXE, want [(6, 0x00)] (false, true) 0x0103 [])] :
    List ((Byte → Instr) × Option View)), after p.1 = p.2 := by decide +kernel

theorem test_s2_5x : ∀ p ∈ (
    [(.movYA, want [] (false, true) 0x0103 []),
     (.movYB, want [(7, 0x01)] (false, true) 0x0103 []),
     (.movYC, want [(7, 0x09)] (false, true) 0x0103 []),
     (.movYX, want [(7, 0x12)] (false, true) 0x0103 []),
     (.movYY, want [] (false, true) 0x0103 []),
     (.movYU, want [] (false, true) 0x0103 []),
     (.movYV, want [] (false, true) 0x0103 []),
     (.movYM, want [(7, 0xC3)] (false, true) 0x0103 [.memRead 0xFFFF 0xC3]),
     (.movYG, want [(7, 0x56)] (false, true) 0x0103 []),
     (.movYH, want [(7, 0x34)] (false, true) 0x0103 []),
     (.movYE, want [(7, 0x00)] (false, true) 0x0103 [])] :
    List ((Byte → Instr) × Option View)), after p.1 = p.2 := by decide +kernel

theorem test_s2_6x : ∀ p ∈ (
    [(.movUA, want [] (false, true) 0x0103 []),
     (.movUB, want [(8, 0x01)] (false, true) 0x0103 []),
     (.movUC, want [(8, 0x09)] (false, true) 0x0103 []),
     (.movUX, want [(8, 0x12)] (false, true) 0x0103 []),
     (.movUY, want [] (false, true) 0x0103 []),
     (.movUU, want [] (false, true) 0x0103 []),
     (.movUV, want [] (false, true) 0x0103 []),
     (.movUM, want [(8, 0xC3)] (false, true) 0x0103 [.memRead 0xFFFF 0xC3]),
     (.movUG, want [(8, 0x56)] (false, true) 0x0103 []),
     (.movUH, want [(8, 0x34)] (false, true) 0x0103 []),
     (.movUE, want [(8, 0x00)] (false, true) 0x0103 [])] :
    List ((Byte → Instr) × Option View)), after p.1 = p.2 := by decide +kernel

theorem test_s2_7x : ∀ p ∈ (
    [(.movVA, want [] (false, true) 0x0103 []),
     (.movVB, want [(9, 0x01)] (false, true) 0x0103 []),
     (.movVC, want [(9, 0x09)] (false, true) 0x0103 []),
     (.movVX, want [(9, 0x12)] (false, true) 0x0103 []),
     (.movVY, want [] (false, true) 0x0103 []),
     (.movVU, want [] (false, true) 0x0103 []),
     (.movVV, want [] (false, true) 0x0103 []),
     (.movVM, want [(9, 0xC3)] (false, true) 0x0103 [.memRead 0xFFFF 0xC3]),
     (.movVG, want [(9, 0x56)] (false, true) 0x0103 []),
     (.movVH, want [(9, 0x34)] (false, true) 0x0103 []),
     (.movVE, want [(9, 0x00)] (false, true) 0x0103 [])] :
    List ((Byte → Instr) × Option View)), after p.1 = p.2 := by decide +kernel

theorem test_s2_8x : ∀ p ∈ (
    [(.movMA, want [] (false, true) 0x0103 [.memWrite 0xFFFF 0xFF]),
     (.movMB, want [] (false, true) 0x0103 [.memWrite 0xFFFF 0x01]),
     (.movMC, want [] (false, true) 0x0103 [.memWrite 0xFFFF 0x09]),
     (.movMX, want [] (false, true) 0x0103 [.memWrite 0xFFFF 0x12]),
     (.movMY, want [] (false, true) 0x0103 [.memWrite 0xFFFF 0xFF]),
     (.movMU, want [] (false, true) 0x0103 [.memWrite 0xFFFF 0xFF]),
     (.movMV, want [] (false, true) 0x0103 [.memWrite 0xFFFF 0xFF]),
     (.movMM, want [] (false, true) 0x0103 [.memRead 0xFFFF 0xC3, .memWrite 0xFFFF 0xC3]),
     (.movMG, want [] (false, true) 0x0103 [.memWrite 0xFFFF 0x56]),
     (.movMH, want [] (false, true) 0x0103 [.memWrite 0xFFFF 0x34]),
     (.movME, want [] (false, true) 0x0103 [.memWrite 0xFFFF 0x00])] :
    List ((Byte → Instr) × Option View)), after p.1 = p.2 := by decide +kernel

theorem test_s2_9x : ∀ p ∈ (
    [(.movPA, want [] (false, true) 0x0103 [.periphStore 3 0xFFFF 0xFF]),
     (.movPB, want [] (false, true) 0x0103 [.periphStore 3 0xFFFF 0x01]),
     (.movPC, want [] (false, true) 0x0103 [.periphStore 3 0xFFFF 0x09]),
     (.movPX, want [] (false, true) 0x0103 [.periphStore 3 0xFFFF 0x12]),
     (.movPY, want [] (false, true) 0x0103 [.periphStore 3 0xFFFF 0xFF]),
     (.movPU, want [] (false, true) 0x0103 [.periphStore 3 0xFFFF 0xFF]),
     (.movPV, want [] (false, true) 0x0103 [.periphStore 3 0xFFFF 0xFF]),
     (.movPM, want [] (false, true) 0x0103 [.memRead 0xFFFF 0xC3, .periphStore 3 0xFFFF 0xC3]),
     (.movPG, want [] (false, true) 0x0103 [.periphStore 3 0xFFFF 0x56]),
     (.movPH, want [] (false, true) 0x0103 [.periphStore 3 0xFFFF 0x34]),
     (.movPE, want [] (false, true) 0x0103 [.periphStore 3 0xFFFF 0x00])] :
    List ((Byte → Instr) × Option View)), after p.1 = p.2 := by decide +kernel

theorem test_s2_Ax : ∀ p ∈ (
    [(.aluA, want [(0, 0x00)] (false, false) 0x0103 []),
     (.aluB, want [(1, 0x00)] (false, false) 0x0103 []),
     (.aluD, want [(3, 0x00)] (false, false) 0x0103 []),
     (.aluX, want [(6, 0x00)] (false, false) 0x0103 []),
     (.aluY, want [(7, 0x00)] (false, false) 0x0103 []),
     (.aluU, want [(8, 0x00)] (false, false) 0x0103 []),
     (.aluV, want [(9, 0x00)] (false, false) 0x0103 []),
     (.aluM, want [] (false, false) 0x0103 [.memWrite 0xFFFF 0x00]),
     (.aluP, want [] (false, false) 0x0103 [.periphStore 3 0xFFFF 0x00])] :
    List ((Byte → Instr) × Option View)), after p.1 = p.2 := by decide +kernel

theorem test_s2_Bx : ∀ p ∈ (
    [(.alucA, want [(0, 0x01)] (false, false) 0x0103 []),
     (.alucB, want [] (false, false) 0x0103 []),
     (.alucD, want [(3, 0x01)] (false, false) 0x0103 []),
     (.alucX, want [(6, 0x01)] (false, false) 0x0103 []),
     (.alucY, want [(7, 0x01)] (false, false) 0x0103 []),
     (.alucU, want [(8, 0x01)] (false, false) 0x0103 []),
     (.alucV, want [(9, 0x01)] (false, false) 0x0103 []),
     (.alucM, want [] (false, false) 0x0103 [.memWrite 0xFFFF 0x01]),
     (.alucP, want [] (false, false) 0x0103 [.periphStore 3 0xFFFF 0x01])] :
    List ((Byte → Instr) × Option View)), after p.1 = p.2 := by decide +kernel

theorem test_s2_Cx : ∀ p ∈ (
    [(.cmp, want [] (false, false) 0x0103 []),
     (.cmpc, want [] (false, false) 0x0103 [])] :
    List ((Byte → Instr) × Option View)), after p.1 = p.2 := by decide +kernel

theorem test_s2_Dx : ∀ p ∈ (
    [(.jmp, want [] (false, true) 0x12FF [.willJump 0x12FF]),
     (.jc, want [] (false, true) 0x0103 []),
     (.jnc, want [] (false, true) 0x12FF [.willJump 0x12FF]),
     (.je, want [] (false, true) 0x12FF [.willJump 0x12FF]),
     (.jne, want [] (false, true) 0x0103 []),
     (.link, want [(4, 0x01), (5, 0x02)] (false, true) 0x0103 []),
     (.jalr, want [(4, 0x01), (5, 0x02)] (false, true) 0x12FF [.willJump 0x12FF])] :
    List ((Byte → Instr) × Option View)), after p.1 = p.2 := by decide +kernel

theorem test_s2_Ex : ∀ p ∈ (
    [(.inxy, want [(6, 0x13), (7, 0x00)] (false, true) 0x0103 []),
     (.inuv, want [(8, 0x00), (9, 0x00)] (false, true) 0x0103 []),
     (.ldai, want [(0, 0xC3), (8, 0x00), (9, 0x00)] (false, true) 0x0103 [.memRead 0xFFFF 0xC3]),
     (.stai, want [(8, 0x00), (9, 0x00)] (false, true) 0x0103 [.memWrite 0x0000 0xFF])] :
    List ((Byte → Instr) × Option View)), after p.1 = p.2 := by decide +kernel

/-- The rows whose source is a peripheral: the device's answer is free, and goes where the row says. -/
theorem test_s2_peripheral_sources :
    after .movAP = want [(0, answer)] (false, true) 0x0103 [.periphLoad 3 0xFFFF answer] ∧
    after .movBP = want [(1, answer)] (false, true) 0x0103 [.periphLoad 3 0xFFFF answer] ∧
    after .movDP = want [(3, answer)] (false, true) 0x0103 [.periphLoad 3 0xFFFF answer] ∧
    after .movXP = want [(6, answer)] (false, true) 0x0103 [.periphLoad 3 0xFFFF answer] ∧
    after .movYP = want [(7, answer)] (false, true) 0x0103 [.periphLoad 3 0xFFFF answer] ∧
    after .movUP = want [(8, answer)] (false, true) 0x0103 [.periphLoad 3 0xFFFF answer] ∧
    after .movVP = want [(9, answer)] (false, true) 0x0103 [.periphLoad 3 0xFFFF answer] ∧
    after .movMP = want [] (false, true) 0x0103 [.periphLoad 3 0xFFFF answer, .memWrite 0xFFFF answer] ∧
    after .movPP = want [] (false, true) 0x0103 [.periphLoad 3 0xFFFF answer, .periphStore 3 0xFFFF answer] := by
  refine ⟨rfl, rfl, rfl, rfl, rfl, rfl, rfl, rfl, rfl⟩
/-- The link value of Revision A (95_test_vectors.md 2.4, below the table). -/
theorem test_link_revision_a :
    (match exec (.link 0x09) { s2 with params := { s2.params with rev := .a } } with
      | .next t => t.cpu.gh | _ => 0) = 0x0103 ∧
    (match exec (.jalr 0x09) { s2 with params := { s2.params with rev := .a } } with
      | .next t => t.cpu.gh | _ => 0) = 0x12FF := by decide +kernel

/-- 95_test_vectors.md 2.6: which conditional jumps are taken at flags (0,0), (0,1), (1,0), (1,1). -/
def takenAt (f : Byte → Instr) : List Bool :=
  ([⟨false, false⟩, ⟨false, true⟩, ⟨true, false⟩, ⟨true, true⟩] : List Flags).map fun fl =>
    match exec (f 0x00) { s2 with cpu := { s2.cpu with flags := fl } } with
    | .next t => decide (t.cpu.pc = 0x12FF)
    | _ => false

theorem test_conditional_jumps :
    takenAt .jc = [false, false, true, true] ∧ takenAt .jnc = [true, true, false, false] ∧
    takenAt .je = [false, true, false, true] ∧ takenAt .jne = [true, false, true, false] ∧
    takenAt .jmp = [true, true, true, true] ∧ takenAt .jalr = [true, true, true, true] := by decide +kernel

/-! ### Bus priority: control words no reference instruction has (95_test_vectors.md 2.5; its rows have immediate 0x09) -/

/-- The view after the step of the raw word of some signals at S2. -/
def afterSignals (sigs : List Signal) : View := view (clock Layout.reference (controlWord sigs) 0x09 s2)

theorem test_bus_priority :
    some (afterSignals [.ao, .bo, .di]) = want [(3, 0x01)] (false, true) 0x0103 [] ∧
    some (afterSignals [.go, .ho, .ai]) = want [(0, 0x34)] (false, true) 0x0103 [] ∧
    some (afterSignals [.eo, .mo, .xi]) = want [(6, 0xC3)] (false, true) 0x0103 [.memRead 0xFFFF 0xC3] ∧
    some (afterSignals [.co, .eo, .yi]) = want [(7, 0x00)] (false, true) 0x0103 [] ∧
    some (afterSignals [.di]) = want [(3, 0x00)] (false, true) 0x0103 [] ∧
    some (afterSignals [.ai, .bi, .xi]) = want [(0, 0x00), (1, 0x00), (6, 0x00)] (false, true) 0x0103 [] ∧
    some (afterSignals [.ao, .di, .pi]) = want [(3, 0xFF)] (false, true) 0x0103 [.periphStore 0x03 0xFFFF 0xFF] := by
  decide +kernel

theorem test_peripheral_wins :
    some (afterSignals [.mo, .po, .ai]) = want [(0, answer)] (false, true) 0x0103 [.periphLoad 0x03 0xFFFF answer] ∧
    some (afterSignals [.go, .po, .bi]) = want [(1, answer)] (false, true) 0x0103 [.periphLoad 0x03 0xFFFF answer] :=
  ⟨rfl, rfl⟩

/-- An unoccupied slot answers 0x00, and the load is still an event; no oracle answer is drawn (20_memory.md R40). -/
theorem test_unoccupied_slot :
    (match exec (.movAP 0x09) { s2 with cpu := { s2.cpu with d := 0x04 } } with
      | .next t => (t.cpu.a, t.events.drop 1, t.periphDraws)
      | _ => (0xFF, [], 9)) = (0x00, [.periphLoad 0x04 0xFFFF 0x00], 0) := by decide +kernel

/-- `XI` with `XYInc` overrides the increment's carry; a jump with `XYInc` goes to the old X:Y (41_pipeline_step.md R126, R152). -/
theorem test_pair_overrides :
    (afterSignals [.ao, .xi, .xyInc]).regs.getD 6 0 = 0xFF ∧ (afterSignals [.ao, .xi, .xyInc]).regs.getD 7 0xFF = 0x00 ∧
    (afterSignals [.j, .xyInc]).pc = 0x12FF := by decide +kernel

/-- 95_test_vectors.md 2.8: `LDAI` reads before the increment, `STAI` writes after it. -/
theorem test_increment_order :
    (match exec (.ldai 0x00) { s2 with cpu := { s2.cpu with u := 0x80, v := 0xFF }, ram := [(0x80FF, 0x11)] } with
      | .next t => (t.cpu.a, t.cpu.uv) | _ => (0, 0)) = (0x11, 0x8100) ∧
    (match exec (.stai 0x00) { s2 with cpu := { s2.cpu with a := 0x77, u := 0x80, v := 0xFF }, ram := [] } with
      | .next t => (t.ram, t.cpu.uv) | _ => ([], 0)) = ([(0x8100, 0x77)], 0x8100) := by decide +kernel

/-- Writing 0x00, what an unlisted address reads as, unlists the address. -/
theorem test_memory_canonical :
    writeByte [(1, 0x11), (3, 0x33)] 2 0x22 = [(1, 0x11), (2, 0x22), (3, 0x33)] ∧
    writeByte [(1, 0x11), (3, 0x33)] 3 0x00 = [(1, 0x11)] ∧ readByte [(1, 0x11)] 3 = 0x00 ∧
    Memory.wf [(3, 0x33), (1, 0x11)] = false ∧ Memory.wf [(1, 0x00)] = false ∧ Memory.wf [(65536, 0x11)] = false := by
  decide +kernel

/-! ### Reset, the step, the placing of an instruction -/

/-- 95_test_vectors.md 2.9: the latches after the first step from reset: if_id.pc, pc_if, pc. -/
theorem test_first_step :
    (match step State.reset with
      | .next t => (t.cpu.ifId.pc, t.cpu.pcIf, t.cpu.pc, t.cpu.uptime)
      | _ => (9, 9, 9, 9)) = (0x0000, 0x0000, 0x0001, 1) := by decide +kernel

/-- A placed instruction is the one the next step runs, and nothing but if_id is touched at reset. -/
theorem test_placed_runs :
    (match step (State.reset.withFetchWord 16 0x1205) with | .next t => t.cpu.a | _ => 0) = 0x05 ∧
    (match step (State.reset.withFetchWord 16 0xD500) with | .next t => t.cpu.gh | _ => 9) = 0x0000 ∧
    State.reset.withFetchWord 16 0x1205 =
      { State.reset with cpu := { ProcessorState.reset with ifId := ins 0x12 0x05 0x0000 [] false } } := by decide +kernel

/-- A tracing state about to retire the instruction at 0x0008 in the steady state, with given mode and cache. -/
def atLoop (mode : VmMode) (cache : TraceCache) : State :=
  { State.reset with
    cpu := { ProcessorState.reset with
      a := 0x06, x := 0x00, y := 0x08, u := 0x80, pcIf := 0x0009, pc := 0x000A, ifId := ins 0x80 0x00 0x0008 [] false }
    mode := mode, cache := cache
    params := { Params.reset with strategy := .tracing, capture := true, progUpper := [(8, 0x80), (9, 0xE1)] } }

/-- A trace of two instructions, whose head draws no poll, so that its replay does not depend on one. -/
def pair : Trace := { head := ins 0x80 0x00 0x0008 [] false, tail := [ins 0xE1 0x00 0x0009 [] false] }

/-- The placing sets aside a replay, a finalization and a halt, so that the placed instruction is the one that runs. -/
theorem test_placed_runs_anyway :
    ((match step ((atLoop .idle [(8, pair)]).withFetchWord 16 0x1242) with | .next t => t.cpu.a | _ => 0) = 0x42) ∧
    ((match step ((atLoop (.recording { instrs := [ins 0x80 0x00 0x0008 [] true] }) []).withFetchWord 16 0x1242) with
      | .next t => t.cpu.a | _ => 0) = 0x42) ∧
    ((match step ({ s2 with cpu := { s2.cpu with cw := 0xFFFFFFFE } }.withFetchWord 16 0x1242) with
      | .next t => t.cpu.a | _ => 0) = 0x42) := by decide +kernel

/-- 95_test_vectors.md 2.10: a halted core's step changes uptime alone. -/
theorem test_halted_step :
    (match step { s2 with cpu := { s2.cpu with cw := 0xFFFFFFFE } } with | .next t => some t.cpu | _ => none) =
      some { s2.cpu with cw := 0xFFFFFFFE, uptime := 1 } := by decide +kernel

/-! ### The trace engine (95_test_vectors.md 1.4, 2.11, 2.12) -/

theorem test_profiler :
    (profilerHit [] 8).2 = false ∧ (profilerHit [(8, 1)] 8).2 = false ∧ profilerHit [(8, 2)] 8 = ([(8, 3)], true) ∧
    (profilerHit [(8, 3)] 8).2 = false ∧ isHot [(8, 2)] 8 = false ∧ isHot [(8, 3)] 8 = true ∧
    profilerReset [(8, 3)] = [] := by decide +kernel

theorem test_flow_classes :
    flowClass .reference 0xD0 = .unconditional ∧ flowClass .reference 0xD6 = .unconditional ∧
    (∀ op ∈ ([0xD1, 0xD2, 0xD3, 0xD4] : List Byte), flowClass .reference op = .conditional) ∧
    (∀ op ∈ ([0xD5, 0x00, 0xA0, 0x80] : List Byte), flowClass .reference op = .other) := by decide +kernel

/-- The JNE of P4's trace, as the recorder writes it: Address(0x0008), Flags(0, 0). -/
theorem test_record_jne :
    (Recorder.record .reference { instrs := [ins 0x80 0x00 0x0008 [] true] } (ins 0xD4 0x00 0x000C [] false)
      { ProcessorState.reset with y := 0x08 }).instrs =
      [ins 0x80 0x00 0x0008 [] true, ins 0xD4 0x00 0x000C [.address 0x0008, .flags ⟨false, false⟩] false] := by
  decide +kernel

/-- A state whose if_id holds that JNE, with given X:Y (low byte) and flags. -/
def atJne (y : Byte) (flags : Flags) : State :=
  { State.reset with
    cpu := { ProcessorState.reset with
      y := y, flags := flags, ifId := ins 0xD4 0x00 0x000C [.address 0x0008, .flags ⟨false, false⟩] false } }

theorem test_checks :
    (replayChecks (fun _ => true) (atJne 0x08 ⟨false, false⟩)).2 = false ∧
    (replayChecks (fun _ => true) (atJne 0x08 ⟨true, true⟩)).2 = true ∧
    (replayChecks (fun _ => true) (atJne 0x09 ⟨false, false⟩)).2 = true := by decide +kernel

theorem test_flush_bail :
    (flush pair State.reset).cpu.pcIf = 0x0009 ∧ (flush pair State.reset).cpu.pc = 0x000A ∧
    (bail 0x000C State.reset).cpu.pc = 0x000C ∧ replayFetch pair 0 0x1234 = ins 0xE1 0x00 0x0009 [] false ∧
    replayFetch pair 1 0x1234 = ins 0x00 0x00 0x1234 [.fail] false := by decide +kernel

/-- The replay of `pair` performs its two steps and bails at the boundary; with a ceiling of one step it stops there
(43_trace_engine.md R185, R187). -/
theorem test_execute :
    ((match execute (fun _ => false) pair (atLoop .idle []) with | .next r => (r.result, r.steps) | _ => (.halted, 9)) =
      (.bailed 0x000A, 2)) ∧
    ((match execute (fun _ => false) pair
        { atLoop .idle [] with params := { (atLoop .idle []).params with maxTraceSteps := 1 } } with
      | .next r => (r.result, r.steps, r.state.cpu.ifId.pc) | _ => (.halted, 9, 9)) = (.ceiling, 1, 0x0009)) := by
  decide +kernel

/-- P4's trace, as 95_test_vectors.md 2.11 gives it: a breakpoint first, guards on the JNE. -/
def loopTrace : Trace :=
  { head := ins 0x80 0x00 0x0008 [] true
    tail := [ins 0xE1 0x00 0x0009 [] false, ins 0xA0 0x0F 0x000A [] false, ins 0xC0 0x06 0x000B [] false,
      ins 0xD4 0x00 0x000C [.address 0x0008, .flags ⟨false, false⟩] false, ins 0x00 0x00 0x000D [] false,
      ins 0x00 0x00 0x000E [] false] }

/-- 95_test_vectors.md 2.12: a pass of the loop bails at 0x0008 after 7 steps, the last at 0x000C after 4; with a set
cancellation flag the replay bails on the breakpoint before any step. -/
theorem test_loop_replay :
    ((match execute (fun _ => false) loopTrace (atLoop .idle []) with
      | .next r => (r.result, r.steps) | _ => (.halted, 9)) = (.bailed 0x0008, 7)) ∧
    ((match execute (fun _ => false) loopTrace { atLoop .idle [] with cpu := { (atLoop .idle []).cpu with a := 0x01 } } with
      | .next r => (r.result, r.steps) | _ => (.halted, 9)) = (.bailed 0x000C, 4)) ∧
    ((match execute (fun _ => true) loopTrace (atLoop .idle []) with
      | .next r => (r.result, r.steps, r.state.cancelDraws) | _ => (.halted, 9, 9)) = (.bailed 0x0008, 0, 1)) := by
  decide +kernel

/-- A bail before any step sets `skipExec`, and the VM then does not replay (44_tracing_vm.md R198). -/
theorem test_skip_exec :
    (match vmStepWith (fun _ => true) (atLoop .idle [(8, loopTrace)]) with
      | .next t => (t.skipExec, t.cpu.ifId.guard, t.cpu.uptime, vmCase t)
      | _ => (false, [.fail], 9, .plain)) = (true, [], 0, .ordinary) := by decide +kernel

/-- The case a VM step takes (44_tracing_vm.md R192). -/
theorem test_vm_cases :
    vmCase State.reset = .plain ∧ vmCase (atLoop .idle []) = .ordinary ∧
    vmCase { atLoop .idle [] with hotCandidate := some 0x0008 } = .record ∧
    vmCase (atLoop .idle [(8, pair)]) = .replay pair ∧
    vmCase (atLoop (.recording { instrs := [ins 0x80 0x00 0x0008 [] true] }) []) =
      .finalize { head := ins 0x80 0x00 0x0008 [] true, tail := [] } := by decide +kernel

/-- A recording starts with the anchor, as a breakpoint; a backward transition feeds the profiler (R199 to R202). -/
theorem test_record_and_profile :
    ((match vmStepWith (fun _ => false) { atLoop .idle [] with hotCandidate := some 0x0008 } with
      | .next t => t.mode | _ => .idle) = .recording { instrs := [ins 0x80 0x00 0x0008 [] true] }) ∧
    ((match vmStepWith (fun _ => false)
        { atLoop .idle [] with cpu := { (atLoop .idle []).cpu with pcIf := 0x0003 }, hits := [(3, 2)] } with
      | .next t => (t.hits, t.hotCandidate) | _ => ([], none)) = ([(3, 3)], some 0x0003)) := by decide +kernel

/-- The loads: two bytes of a program, and what is refused (60_exceptions.md R363, R364). -/
theorem test_loads :
    ((match loadProgram [0x12, 0x22] [0x05, 0x03] [] s2 with
      | .next t => some ((fetch t.params 0x0001).opcode, (fetch t.params 0x0001).immediate, (fetch t.params 0x0002).opcode)
      | _ => none) = some (0x22, 0x03, 0x00)) ∧
    ((match loadProgram [0x12] [] [] s2 with | .refused r => some r | _ => none) = some .loadRefused) ∧
    ((match loadRom Layout.reference [0xFF] [0xFF] [0xFF] [0xFF] [] s2 with | .refused r => some r | _ => none) =
      some .loadRefused) ∧
    ((match constructFromBanks Params.reset Layout.reference [] [] [] [] [] with | .fault r => some r | _ => none) =
      some .constructionError) := by decide +kernel

/-- 60_exceptions.md R361: a run stops when the core is halted, or when its budget is spent. -/
theorem test_bounded_run :
    ((match runVm 2 (State.reset.withFetchWord 16 0x0100) with | .next (t, r) => (t.cpu.uptime, r) | _ => (9, .halted)) =
      (1, .halted)) ∧
    ((match runVm 2 State.reset with | .next (t, r) => (t.cpu.uptime, r) | _ => (9, .halted)) =
      (2, .stepBudgetExceeded)) := by decide +kernel

/-! ### Witnesses: for each statement with hypotheses, a concrete state and operands that meet them together -/

/-- A state about to retire a word, in the steady state at 0x0100. -/
def about (opcode imm : Byte) : State :=
  { s2 with cpu := { s2.cpu with ifId := ins opcode imm 0x0100 [] false } }

/-- The same in a halted core. -/
def haltedState : State := { s2 with cpu := { s2.cpu with cw := 0xFFFFFFFE } }

theorem witness_EncodeOfDecodeIsTheWord : decode 0x1205 = .ok (.movAC 0x05) ∧ decode 0xE3FF = .ok (.stai 0xFF) := by
  decide +kernel

theorem witness_UnprogrammedOpcodesRunAsNop :
    isUnprogrammed 0x02 = true ∧ isUnprogrammed 0xFF = true ∧ isUnprogrammed 0xE3 = false ∧
    (about 0xE4 0x09).params.microcode = .reference ∧ (about 0xE4 0x09).isHalted = false ∧
    isUnprogrammed (about 0xE4 0x09).cpu.ifId.opcode = true := by decide +kernel

theorem witness_SpareControlBitsHaveNoEffect :
    ∀ sig, (0xFFFFFFFF : ControlWord).getLsbD (Layout.reference.bit sig).val =
      (0x0FFFFFFF : ControlWord).getLsbD (Layout.reference.bit sig).val := by
  intro sig; cases sig <;> rfl

/-- The same, with the reference microcode as a loaded image. -/
def aboutImage (opcode imm : Byte) : State :=
  { about opcode imm with params := { Params.reset with microcode := .image Layout.reference referenceTable } }

theorem witness_MeaningsAreTheRomDrivenStep :
    (about 0xD4 0x00).params.microcode = .reference ∧ (about 0xD4 0x00).isHalted = false ∧
    (aboutImage 0xE3 0x00).params.microcode = .image Layout.reference referenceTable ∧
    (aboutImage 0xE3 0x00).isHalted = false ∧
    (let f := (aboutImage 0xE3 0x00).cpu.flags
     referenceTable[(if f.carry then 512 else 0) + (if f.equal then 256 else 0) + 0xE3]? = some 0xFBFFFDDF) ∧
    ((⟨false, true⟩, 0xD4) : Flags × Byte) ≠ (⟨true, false⟩, 0xD4) := by
  refine ⟨?_, ?_, rfl, ?_, ?_, ?_⟩ <;> decide +kernel

theorem witness_LoadedReferenceTableStepsAlike :
    (about 0xE3 0x00).params.microcode = .reference ∧ ∃ t, interpStep (about 0xE3 0x00) = .next t := ⟨rfl, _, rfl⟩

theorem witness_MovToRegisterCompletes :
    isRegisterInput .ai = true ∧ isRegisterInput .vi = true ∧ ∃ t, exec (movInstr .po .ai 0x09) s2 = .next t :=
  ⟨rfl, rfl, _, rfl⟩

theorem witness_MovToRamCompletes : (0x0000 : Addr) ≠ s2.cpu.uv ∧ ∃ t, exec (movInstr .mo .mi 0x09) s2 = .next t :=
  ⟨by decide, _, rfl⟩

theorem witness_MovToPeripheralCompletes : ∃ t, exec (movInstr .po .pi 0x09) s2 = .next t := ⟨_, rfl⟩

theorem witness_AluToRegisterCompletes :
    isRegisterInput .ai = true ∧ isRegisterInput .vi = true ∧ (∃ t, exec (aluInstr .ai 0x09) s2 = .next t) ∧
    ∃ t, exec (alucInstr .vi 0x09) s2 = .next t := ⟨rfl, rfl, ⟨_, rfl⟩, _, rfl⟩

theorem witness_AluToRamAndPeripheralCompletes :
    (0x0000 : Addr) ≠ s2.cpu.uv ∧ (∃ t, exec (.aluM 0x09) s2 = .next t) ∧ (∃ t, exec (.alucM 0x09) s2 = .next t) ∧
    (∃ t, exec (.aluP 0x09) s2 = .next t) ∧ ∃ t, exec (.alucP 0x09) s2 = .next t :=
  ⟨by decide, ⟨_, rfl⟩, ⟨_, rfl⟩, ⟨_, rfl⟩, _, rfl⟩

theorem witness_ComparesNopAndHltWriteNoRegister :
    (∃ t, exec (.cmp 0x06) s2 = .next t) ∧ (∃ t, exec (.cmpc 0x06) s2 = .next t) ∧
    s2.params.microcode = .reference ∧ (∃ t, exec (.nop 0x09) s2 = .next t) ∧ ∃ t, exec (.hlt 0x09) s2 = .next t :=
  ⟨⟨_, rfl⟩, ⟨_, rfl⟩, rfl, ⟨_, rfl⟩, _, rfl⟩

theorem witness_JumpsGoToXYWhereTheirConditionHolds :
    (∃ t, exec (.jmp 0x00) s2 = .next t) ∧ (∃ t, exec (.jc 0x00) s2 = .next t) ∧ (∃ t, exec (.jnc 0x00) s2 = .next t) ∧
    (∃ t, exec (.je 0x00) s2 = .next t) ∧ ∃ t, exec (.jne 0x00) s2 = .next t :=
  ⟨⟨_, rfl⟩, ⟨_, rfl⟩, ⟨_, rfl⟩, ⟨_, rfl⟩, _, rfl⟩

theorem witness_LinkAndJalrLatchTheLinkValue :
    (∃ t, exec (.link 0x00) s2 = .next t) ∧ ∃ t, exec (.jalr 0x00) s2 = .next t := ⟨⟨_, rfl⟩, _, rfl⟩

theorem witness_PairInstructionsIncrementThePair :
    (∃ t, exec (.inxy 0x00) s2 = .next t) ∧ ∃ t, exec (.inuv 0x00) s2 = .next t := ⟨⟨_, rfl⟩, _, rfl⟩

theorem witness_LoadAndStoreWithIncrement :
    (0x8000 : Addr) ≠ s2.cpu.uv + 1 ∧ (∃ t, exec (.ldai 0x00) s2 = .next t) ∧ ∃ t, exec (.stai 0x00) s2 = .next t :=
  ⟨by decide, ⟨_, rfl⟩, _, rfl⟩

theorem witness_StepRunsTheDecodedInstruction :
    (let s := about 0x1B 0x09
     s.params.microcode = .reference ∧ s.isHalted = false ∧
      decode (instrWord s.cpu.ifId.opcode s.cpu.ifId.immediate) = .ok (.movAE 0x09) ∧ vmCase s = .plain) ∧
    (let s := atLoop .idle []
     s.params.microcode = .reference ∧ s.isHalted = false ∧
      decode (instrWord s.cpu.ifId.opcode s.cpu.ifId.immediate) = .ok (.movMA 0x00) ∧ vmCase s = .ordinary) ∧
    (let s := { atLoop .idle [] with hotCandidate := some 0x0008 }
     s.params.microcode = .reference ∧ s.isHalted = false ∧
      decode (instrWord s.cpu.ifId.opcode s.cpu.ifId.immediate) = .ok (.movMA 0x00) ∧ vmCase s = .record) := by
  decide +kernel

theorem witness_HaltedStepChangesUptimeAlone :
    haltedState.isHalted = true ∧ (∃ t, interpStep haltedState = .next t) ∧ ∃ t, interpStep s2 = .next t :=
  ⟨by decide +kernel, ⟨_, rfl⟩, _, rfl⟩

theorem witness_HaltedVmStepIsInert : haltedState.isHalted = true ∧ ∃ t, step haltedState = .next t :=
  ⟨by decide +kernel, _, rfl⟩

theorem witness_PipelineIsSteadyAfterTwoSteps :
    (∃ t u, StepsWithoutJump State.reset t ∧ StepsWithoutJump t u) ∧
    ∃ t u, StepsWithJump (about 0xD0 0x00) t ∧ StepsWithoutJump t u :=
  ⟨⟨_, _, ⟨by decide +kernel, rfl, by decide +kernel⟩, ⟨by decide +kernel, rfl, by decide +kernel⟩⟩,
    _, _, ⟨by decide +kernel, rfl, by decide +kernel⟩, ⟨by decide +kernel, rfl, by decide +kernel⟩⟩

theorem witness_JumpsHaveTwoDelaySlots :
    ∃ t u w, Steady (about 0xD0 0x00).cpu ∧ StepsWithJump (about 0xD0 0x00) t ∧ StepsWithoutJump t u ∧
      StepsWithoutJump u w :=
  ⟨_, _, _, ⟨rfl, rfl⟩, ⟨by decide +kernel, rfl, by decide +kernel⟩, ⟨by decide +kernel, rfl, by decide +kernel⟩,
    ⟨by decide +kernel, rfl, by decide +kernel⟩⟩

theorem witness_LinkValueInTheSteadyState :
    Steady s2.cpu ∧ asserted Layout.reference (controlWord [.linkIn]) .linkIn = true ∧
    asserted Layout.reference (controlWord [.linkIn]) .j = false ∧
    asserted Layout.reference (controlWord [.j, .linkIn]) .linkIn = true ∧
    asserted Layout.reference (controlWord [.j, .linkIn]) .j = true := ⟨⟨rfl, rfl⟩, by decide +kernel⟩

theorem witness_PairIncrementIsSixteenBit :
    (0xFE : Byte) ≠ 0xFF ∧
    (let w := controlWord [.xyInc, .uvInc]
     asserted Layout.reference w .xyInc = true ∧ asserted Layout.reference w .xi = false ∧
      asserted Layout.reference w .yi = false ∧ asserted Layout.reference w .uvInc = true ∧
      asserted Layout.reference w .ui = false ∧ asserted Layout.reference w .vi = false) := by decide +kernel

theorem witness_LastAssertedOutputWins :
    ([BusOutput.go, .ho, .ao, .bo, .co, .eo, .xo, .yo, .uo, .vo, .mo, .po] =
        [.go, .ho, .ao, .bo, .co, .eo, .xo, .yo, .uo, .vo, .mo] ++ .po :: [] ∧
      asserted Layout.reference (controlWord [.mo, .po]) .po = true) ∧
    ([BusOutput.go, .ho, .ao, .bo, .co, .eo, .xo, .yo, .uo, .vo, .mo, .po] =
        [] ++ .go :: [.ho, .ao, .bo, .co, .eo, .xo, .yo, .uo, .vo, .mo, .po] ∧
      asserted Layout.reference (controlWord [.go]) .go = true ∧
      ∀ o' ∈ ([.ho, .ao, .bo, .co, .eo, .xo, .yo, .uo, .vo, .mo, .po] : List BusOutput),
        asserted Layout.reference (controlWord [.go]) o'.signal = false) ∧
    (∀ o ∈ outputOrder, asserted Layout.reference (controlWord [.ai]) o.signal = false) ∧
    asserted Layout.reference (controlWord [.ai]) .ai = true ∧
    winner Layout.reference (controlWord [.ao]) = some .ao ∧
    winner Layout.reference (controlWord [.eo, .ho, .carryIn]) = some .eo := by
  refine ⟨⟨rfl, ?_⟩, ⟨rfl, ?_, ?_⟩, ?_, ?_, ?_, ?_⟩ <;> decide +kernel

theorem witness_RamIsWrittenByMemoryInAlone :
    asserted Layout.reference (controlWord [.ao, .mi]) .mi = true ∧
    asserted Layout.reference (controlWord [.ao]) .mi = false ∧
    (0x0000 : Addr) ≠ phase2Uv Layout.reference (controlWord [.ao, .mi]) s2.cpu := by decide +kernel

theorem witness_LatchedFlagsChangeThroughFlagsInAlone :
    (about 0xC0 0x06).isHalted = false ∧
    (∃ t, interpStep (about 0xC0 0x06) = .next t ∧ asserted t.layout t.cpu.cw .fi = true) ∧
    (about 0x00 0x06).isHalted = false ∧
    ∃ t, interpStep (about 0x00 0x06) = .next t ∧ asserted t.layout t.cpu.cw .fi = false :=
  ⟨by decide +kernel, ⟨_, rfl, by decide +kernel⟩, by decide +kernel, _, rfl, by decide +kernel⟩

/-- A state about to run, from opcode 0x00 of an image, the word of a signal set. -/
def aboutSignals (sigs : List Signal) : State :=
  { about 0x00 0x06 with
    params := { Params.reset with microcode := .image Layout.reference (tableOfEntries fun _ => controlWord sigs) } }

theorem witness_RegistersChangeThroughTheirSignalsAlone :
    (let s := about 0x00 0x06
     s.isHalted = false ∧ ∃ t, interpStep s = .next t ∧
      ∀ sig ∈ ([.ai, .bi, .di, .linkIn, .xi, .yi, .xyInc, .ui, .vi, .uvInc] : List Signal),
        asserted t.layout t.cpu.cw sig = false) ∧
    (let s := aboutSignals [.co, .ai, .bi, .di, .xi, .yi, .ui, .vi, .linkIn]
     s.isHalted = false ∧ ∃ t, interpStep s = .next t ∧
      ∀ sig ∈ ([.ai, .bi, .di, .xi, .yi, .ui, .vi, .linkIn] : List Signal), asserted t.layout t.cpu.cw sig = true) ∧
    (let s := aboutSignals [.ao, .xyInc, .yi, .uvInc, .vi]
     s.isHalted = false ∧ ∃ t, interpStep s = .next t ∧
      (∀ sig ∈ ([.xyInc, .uvInc] : List Signal), asserted t.layout t.cpu.cw sig = true) ∧
      ∀ sig ∈ ([.xi, .ui] : List Signal), asserted t.layout t.cpu.cw sig = false) ∧
    (let s := aboutSignals [.ao, .xyInc, .xi, .uvInc, .ui]
     s.isHalted = false ∧ ∃ t, interpStep s = .next t ∧
      (∀ sig ∈ ([.xyInc, .uvInc] : List Signal), asserted t.layout t.cpu.cw sig = true) ∧
      ∀ sig ∈ ([.yi, .vi] : List Signal), asserted t.layout t.cpu.cw sig = false) := by
  refine ⟨⟨?_, _, rfl, ?_⟩, ⟨?_, _, rfl, ?_⟩, ⟨?_, _, rfl, ?_, ?_⟩, ⟨?_, _, rfl, ?_, ?_⟩⟩ <;> decide +kernel

theorem witness_NoStepChangesAParameter :
    (∃ t, interpStep s2 = .next t) ∧ ∃ t, step (atLoop .idle []) = .next t := ⟨⟨_, rfl⟩, _, rfl⟩

/-- A state of the invariant with a cached trace, a running recording and a count. -/
def busy : State :=
  { atLoop (.recording { instrs := [ins 0x00 0x00 0x0020 [] true] }) [(8, loopTrace)] with
    hits := [(8, 4), (32, 3)], ram := [(0x8000, 0x06)] }

theorem witness_EveryStepKeepsTheInvariant : Inv busy ∧ ∃ t, step busy = .next t :=
  ⟨⟨by decide +kernel, by decide +kernel, by decide +kernel, by decide +kernel, by decide +kernel, by decide +kernel⟩,
    _, rfl⟩

theorem witness_CachedTracesNeverChange :
    Inv busy ∧ (∃ t, step busy = .next t) ∧ cachedTrace busy.cache 0x0008 = some loopTrace :=
  ⟨witness_EveryStepKeepsTheInvariant.1, witness_EveryStepKeepsTheInvariant.2, by decide +kernel⟩

theorem witness_ProfilerCountsHits : (0x0009 : Addr) ≠ 0x0008 ∧ hitCount [(8, 2)] 0x0008 + 1 = 3 ∧ 3 ≤ hitCount [(8, 3)] 0x0008 := by
  decide +kernel

theorem witness_RecorderGuardsByClass :
    flowClass .reference 0xD0 = .unconditional ∧ flowClass .reference 0xD1 = .conditional ∧
    flowClass .reference 0x00 = .other ∧ (Recorder.mk []).instrs = [] ∧
    (Recorder.mk [ins 0x00 0x00 0x0020 [] true]).instrs ≠ [] := by decide +kernel

theorem witness_ReplayBailsExactlyOnAFailedCheck :
    (flush loopTrace State.reset).cpu.ifId.isBreakpoint = true ∧ (flush pair State.reset).cpu.ifId.isBreakpoint = false := by
  decide +kernel

theorem witness_TraceEngineWritesOnlyLatches :
    Steady (atLoop .idle []).cpu ∧
    SameInstruction (atLoop .idle []).cpu.ifId (fetch (atLoop .idle []).params (atLoop .idle []).cpu.ifId.pc) :=
  ⟨⟨rfl, rfl⟩, by decide +kernel, by decide +kernel, rfl⟩

theorem witness_AnnotationsChangeNoStep :
    SameState s2 { s2 with cpu := { s2.cpu with ifId := ins 0x00 0x00 0x0100 [.fail] true } } ∧ s2.isHalted = false ∧
    (∃ t, interpStep s2 = .next t) ∧ (∃ u, interpStepFetching (ins 0x00 0x00 0x0101 [.fail] true) s2 = .next u) ∧
    SameInstruction (ins 0x00 0x00 0x0101 [.fail] true) (fetch s2.params s2.cpu.pcIf) :=
  ⟨⟨⟨rfl, rfl, rfl⟩, rfl⟩, by decide +kernel, ⟨_, rfl⟩, ⟨_, rfl⟩, rfl, rfl, rfl⟩

theorem witness_ReplayIsBoundedByItsTrace : ∃ r, execute (fun _ => false) loopTrace (atLoop .idle []) = .next r :=
  replayLoop_next _ _ _ _ _

/-- The replay of `pair` from the loop's start, where the trace answers what instruction memory holds. -/
theorem witness_ReplayEqualsInterpretation :
    let s := atLoop .idle [(8, pair)]
    vmCase s = .replay pair ∧ Steady s.cpu ∧ SameInstruction s.cpu.ifId (fetch s.params s.cpu.ifId.pc) ∧
    SameInstruction pair.head s.cpu.ifId ∧
    ∃ (r : Replay) (u : State), execute Config.cancelDraw pair (beginVmStep s) = .next r ∧
      interpRun r.steps s = .next u ∧ (Steady u.cpu ∨ u.isHalted = true) ∧
      ∀ (k : Nat) (v : State), k < r.steps → k + 1 < pair.instrs.length → interpRun k s = .next v →
        SameInstruction (pair.instrs.getD (k + 1) pair.head) (fetch s.params v.cpu.pcIf) := by
  intro s
  obtain ⟨r, hr⟩ := replayLoop_next Config.cancelDraw pair s.params.maxTraceSteps 0 (flush pair (beginVmStep s))
  have h2 : (match execute Config.cancelDraw pair (beginVmStep s) with | .next r => r.steps | _ => 9) = 2 := by
    decide +kernel
  rw [show execute Config.cancelDraw pair (beginVmStep s) = .next r from hr] at h2
  obtain ⟨v, hv⟩ := interpStep_next s
  obtain ⟨u, hu⟩ := interpStep_next v
  have hrun : interpRun 2 s = .next u := by rw [interpRun, hv, andThen_next, interpRun, hu]; rfl
  have hst : (match interpRun 2 s with
      | .next u => decide (u.cpu.pcIf = u.cpu.ifId.pc + 1 ∧ u.cpu.pc = u.cpu.ifId.pc + 2) | _ => false) = true := by
    decide +kernel
  rw [hrun] at hst
  have hsteady : Steady u.cpu := by simpa [Steady] using hst
  refine ⟨by decide +kernel, ⟨rfl, rfl⟩, ⟨by decide +kernel, by decide +kernel, rfl⟩, ⟨rfl, rfl, rfl⟩, r, u, hr,
    by rw [show r.steps = 2 from h2]; exact hrun, .inl hsteady, ?_⟩
  intro k v _ hk hv
  have h0 : k = 0 := by
    have : pair.instrs.length = 2 := rfl
    omega
  subst h0
  cases hv
  exact ⟨by decide +kernel, by decide +kernel, by decide +kernel⟩

theorem witness_PseudoInstructionsHaveTheirEffects :
    isRegisterInput .ai = true ∧ isRegisterInput .vi = true ∧ ∃ t, exec (Pseudo.sub .ai).expand s2 = .next t :=
  ⟨rfl, rfl, _, rfl⟩

/-- The words of 45_reference_microcode.md R245's examples. -/
theorem test_pseudo_words :
    encode (Pseudo.li .ai 5).expand = 0x1205 ∧ encode (Pseudo.li .xi 0).expand = 0x4200 ∧
    encode (Pseudo.add .ai).expand = 0xA009 ∧ encode (Pseudo.sub .bi).expand = 0xB106 ∧
    encode (Pseudo.dec .ai).expand = 0xA00F := by decide +kernel

theorem witness_FinalizingTakesNoInterpreterStep :
    let s := atLoop (.recording { instrs := [ins 0x80 0x00 0x0008 [] true] }) []
    s.params.strategy = .tracing ∧ s.isHalted = false ∧
    s.mode = .recording { instrs := [ins 0x80 0x00 0x0008 [] true] } ∧
    s.cpu.ifId.pc = (ins 0x80 0x00 0x0008 [] true).pc ∧ (0x0009 : Addr) ≠ 0x0008 := by decide +kernel

theorem witness_NonReplayStepsAreInterpreterSteps :
    (let s := s2
     (∀ tr, vmCase s ≠ .replay tr) ∧ (∀ tr, vmCase s ≠ .finalize tr) ∧ ∃ t, step s = .next t) ∧
    (let s := atLoop (.recording { instrs := [ins 0x80 0x00 0x0008 [] true] }) []
     (∀ tr, vmCase s ≠ .replay tr) ∧ (∃ tr, vmCase s = .finalize tr) ∧ ∃ t, step s = .next t) := by
  have h : vmCase s2 = .plain := by decide +kernel
  have k : vmCase (atLoop (.recording { instrs := [ins 0x80 0x00 0x0008 [] true] }) []) =
      .finalize { head := ins 0x80 0x00 0x0008 [] true, tail := [] } := by decide +kernel
  exact ⟨⟨fun tr => by rw [h]; nofun, fun tr => by rw [h]; nofun, _, rfl⟩,
    ⟨fun tr => by rw [k]; nofun, ⟨_, k⟩, _, rfl⟩⟩

/-- A state about to retire the second delay slot of a jump back to 0x0008, whose count is `n`. -/
def beforeBackward (n : Nat) (mode : VmMode) : State :=
  { atLoop mode [] with
    hits := [(8, n)]
    cpu := { (atLoop mode []).cpu with ifId := ins 0x00 0x00 0x0010 [] false, pcIf := 0x0008, pc := 0x0009 } }

theorem witness_OrdinaryStepsFeedProfilerAndRecorder :
    (let s := beforeBackward 2 .idle
     vmCase s = .ordinary ∧ ∃ t, step s = .next t ∧ t.cpu.ifId.pc.toNat < s.cpu.ifId.pc.toNat ∧
      t.hotCandidate = some 0x0008) ∧
    (let s := beforeBackward 3 .idle
     vmCase s = .ordinary ∧ ∃ t, step s = .next t ∧ t.cpu.ifId.pc.toNat < s.cpu.ifId.pc.toNat ∧ t.hotCandidate = none) ∧
    (let s := atLoop .idle []
     vmCase s = .ordinary ∧ s.mode = .idle ∧ ∃ t, step s = .next t ∧ s.cpu.ifId.pc.toNat ≤ t.cpu.ifId.pc.toNat) ∧
    (let s := { atLoop .idle [] with hotCandidate := some 0x0008 }
     vmCase s = .record ∧ ∃ t, step s = .next t) ∧
    (let s := beforeBackward 1 (.recording { instrs := [ins 0x80 0x00 0x0008 [] true] })
     vmCase s = .ordinary ∧ ∃ t, step s = .next t) ∧
    (vmCase s2 ≠ .ordinary ∧ vmCase s2 ≠ .record ∧ ∃ t, step s2 = .next t) ∧ (0x0009 : Addr) ≠ 0x0008 := by
  refine ⟨⟨?_, _, rfl, ?_, ?_⟩, ⟨?_, _, rfl, ?_, ?_⟩, ⟨?_, rfl, _, rfl, ?_⟩, ⟨?_, _, rfl⟩, ⟨?_, _, rfl⟩,
    ⟨?_, ?_, _, rfl⟩, ?_⟩ <;> decide +kernel

/-- The same state with capture on. -/
def captured (s : State) : State := { s with params := { s.params with capture := true } }

theorem answers {o : StepOutcome} (h : (match o with | .next _ => true | _ => false) = true) : ∃ t, o = .next t := by
  cases o with
  | next t => exact ⟨t, rfl⟩
  | fault _ => cases h
  | refused _ => cases h

theorem witness_EveryPerformedStepIsLogged :
    (s2.params.capture = false ∧ ∃ t, step s2 = .next t) ∧
    (let s := captured s2
     s.params.capture = true ∧ vmCase s = .plain ∧ ∃ t, step s = .next t) ∧
    (let s := captured (atLoop (.recording { instrs := [ins 0x80 0x00 0x0008 [] true] }) [])
     s.params.capture = true ∧ vmCase s = .finalize { head := ins 0x80 0x00 0x0008 [] true, tail := [] } ∧
      ∃ t, step s = .next t) ∧
    (let s := captured (atLoop .idle [(8, pair)])
     s.params.capture = true ∧ vmCase s = .replay pair ∧ (∃ t, step s = .next t) ∧
      (∃ r, execute Config.cancelDraw pair (beginVmStep s) = .next r ∧ 0 + 1 < r.steps) ∧
      ∃ v, replayRun pair (0 + 1) s = .next v) := by
  refine ⟨⟨?_, _, rfl⟩, ⟨?_, ?_, _, rfl⟩, ⟨?_, ?_, _, rfl⟩, ⟨?_, ?_, answers ?_, ?_, answers ?_⟩⟩
  case refine_9 =>
    obtain ⟨r, hr⟩ : ∃ r, execute Config.cancelDraw pair (beginVmStep (captured (atLoop .idle [(8, pair)]))) = .next r :=
      replayLoop_next _ _ _ _ _
    refine ⟨r, hr, ?_⟩
    have h : (match execute Config.cancelDraw pair (beginVmStep (captured (atLoop .idle [(8, pair)]))) with
      | .next r => r.steps | _ => 0) = 2 := by decide +kernel
    rw [hr] at h
    simp only at h
    omega
  all_goals decide +kernel

/-- A trace whose first instruction always bails, so that its replay bails before any step. -/
def failing : Trace := { head := ins 0x80 0x00 0x0008 [.fail] false, tail := [] }

theorem witness_ReplayIsNotRepeatedWithoutProgress :
    (let s := atLoop .idle [(8, failing)]
     vmCase s = .replay failing ∧
      (∃ r, execute Config.cancelDraw failing (beginVmStep s) = .next r ∧ r.result = .bailed 0x0008 ∧ r.steps = 0) ∧
      (replayChecks Config.cancelDraw (flush failing (beginVmStep s))).2 = true ∧
      ∃ t, step s = .next t ∧ t.skipExec = true) ∧
    { atLoop .idle [(8, pair)] with skipExec := true }.skipExec = true := by
  refine ⟨⟨?_, ⟨_, rfl, ?_, ?_⟩, ?_, _, rfl, ?_⟩, ?_⟩ <;> decide +kernel

theorem witness_BoundedRunStopsAtHaltOrBudget :
    ∃ t, runVm 2 State.reset = .next (t, .stepBudgetExceeded) ∧ ∃ t, runVm 2 haltedState = .next (t, .halted) :=
  ⟨_, rfl, _, rfl⟩

theorem witness_LoadsAreRefusedOrWhole :
    ¬ ((List.replicate 1023 (0xFF : Byte)).length = 1023 ∧ 1024 ≤ (List.replicate 1023 (0xFF : Byte)).length) ∧
    (List.replicate 1025 (0xFF : Byte)).length ≠ (List.replicate 1024 (0xFF : Byte)).length ∧
    1024 ≤ (List.replicate 1024 (0xFF : Byte)).length ∧
    (List.replicate 1023 (0xFFFFFFFF : ControlWord)).length < 1024 ∧
    1024 ≤ (List.replicate 1024 (0xFFFFFFFF : ControlWord)).length ∧
    ([0x12] : List Byte).length ≠ ([] : List Byte).length ∧
    (List.replicate 65536 (0x12 : Byte)).length = (List.replicate 65536 (0x05 : Byte)).length ∧
    (List.replicate 65536 (0x12 : Byte)).length ≤ 65536 ∧ 65536 < (List.replicate 65537 (0x12 : Byte)).length := by
  simp only [List.length_replicate]
  decide

theorem witness_MemoryReadsTheLastWrite : (0x0001 : Addr) ≠ 0x0002 ∧ Memory.wf [(1, 0x11), (3, 0x33)] = true := by
  decide +kernel

end Sys2Proof.Tests
end

section
/-! What the non-halted step leaves in each field, and what an interpreter step does to the pipeline, the flags and the
registers (10_state.md). -/

namespace Sys2Proof.Proofs

open Sys2Proof Sys2Proof.Machine Sys2Proof.Safety

/-! ### The fields after the non-halted step -/

section
variable (layout : Layout) (cw : ControlWord) (imm : Byte) (s : State)

@[simp] theorem clock_cpu_a : (clock layout cw imm s).cpu.a =
    if asserted layout cw .ai then stepBus layout cw imm s else s.cpu.a := by rw [clock_eq]
@[simp] theorem clock_cpu_b : (clock layout cw imm s).cpu.b =
    if asserted layout cw .bi then stepBus layout cw imm s else s.cpu.b := by rw [clock_eq]
@[simp] theorem clock_cpu_c : (clock layout cw imm s).cpu.c = imm := by rw [clock_eq]
@[simp] theorem clock_cpu_d : (clock layout cw imm s).cpu.d =
    if asserted layout cw .di then stepBus layout cw imm s else s.cpu.d := by rw [clock_eq]
@[simp] theorem clock_cpu_x : (clock layout cw imm s).cpu.x =
    if asserted layout cw .xi then stepBus layout cw imm s
    else if asserted layout cw .xyInc then highByte (s.cpu.xy + 1) else s.cpu.x := by rw [clock_eq]
@[simp] theorem clock_cpu_y : (clock layout cw imm s).cpu.y =
    if asserted layout cw .yi then stepBus layout cw imm s
    else if asserted layout cw .xyInc then lowByte (s.cpu.xy + 1) else s.cpu.y := by rw [clock_eq]
@[simp] theorem clock_cpu_u : (clock layout cw imm s).cpu.u =
    if asserted layout cw .ui then stepBus layout cw imm s
    else if asserted layout cw .uvInc then highByte (s.cpu.uv + 1) else s.cpu.u := by rw [clock_eq]
@[simp] theorem clock_cpu_v : (clock layout cw imm s).cpu.v =
    if asserted layout cw .vi then stepBus layout cw imm s
    else if asserted layout cw .uvInc then lowByte (s.cpu.uv + 1) else s.cpu.v := by rw [clock_eq]
@[simp] theorem clock_cpu_aluResult : (clock layout cw imm s).cpu.aluResult =
    (stepAlu s imm (!asserted layout cw .carryIn)).result := by rw [clock_eq]
@[simp] theorem clock_cpu_aluFlags : (clock layout cw imm s).cpu.aluFlags =
    (stepAlu s imm (!asserted layout cw .carryIn)).flags := by rw [clock_eq]
@[simp] theorem clock_cpu_flags : (clock layout cw imm s).cpu.flags =
    if asserted layout cw .fi then (stepAlu s imm (!asserted layout cw .carryIn)).flags else s.cpu.flags := by rw [clock_eq]
@[simp] theorem clock_cpu_pc : (clock layout cw imm s).cpu.pc =
    if asserted layout cw .j then s.cpu.xy else s.cpu.pc + 1 := by rw [clock_eq]
@[simp] theorem clock_cpu_pcIf : (clock layout cw imm s).cpu.pcIf = s.cpu.pc := by rw [clock_eq]
@[simp] theorem clock_cpu_ifId : (clock layout cw imm s).cpu.ifId = fetch s.params s.cpu.pcIf := by rw [clock_eq]
@[simp] theorem clock_cpu_cw : (clock layout cw imm s).cpu.cw = cw := by rw [clock_eq]
@[simp] theorem clock_params : (clock layout cw imm s).params = s.params := by rw [clock_eq]
@[simp] theorem clock_layout : (clock layout cw imm s).layout = s.layout := by rw [State.layout, clock_params, State.layout]

/-- The link registers take the link value of pc and pc_if as phase 1 left them, which phase 2 does not change. -/
@[simp] theorem clock_cpu_g : (clock layout cw imm s).cpu.g =
    if asserted layout cw .linkIn then
      highByte (linkValue s.params.rev (clock layout cw imm s).cpu.pc (clock layout cw imm s).cpu.pcIf)
    else s.cpu.g := by rw [clock_eq]
@[simp] theorem clock_cpu_h : (clock layout cw imm s).cpu.h =
    if asserted layout cw .linkIn then
      lowByte (linkValue s.params.rev (clock layout cw imm s).cpu.pc (clock layout cw imm s).cpu.pcIf)
    else s.cpu.h := by rw [clock_eq]

end

/-- A completed interpreter step of a core that is not halted is the step of some control word. -/
theorem eq_clock_of_interpStep {s t : State} (hs : s.isHalted = false) (h : interpStep s = .next t) :
    ∃ cw, t = clock s.layout cw s.cpu.ifId.immediate s := by
  rcases interpStep_cases h with ⟨hh, -⟩ | ⟨-, hc⟩
  · simp [hs] at hh
  · exact hc

/-! ### The pipeline latches -/

/-- Every non-halted step fetches at pc_if and moves pc to pc_if; pc goes on, or to X:Y where the held word asserts `J`
(41_pipeline_step.md R119, R120, R123). -/
theorem latches_of_interpStep {s t : State} (hs : s.isHalted = false) (h : interpStep s = .next t) :
    t.cpu.ifId = fetch s.params s.cpu.pcIf ∧ t.cpu.pcIf = s.cpu.pc ∧
    t.cpu.pc = (if asserted t.layout t.cpu.cw .j then s.cpu.xy else s.cpu.pc + 1) ∧ t.params = s.params := by
  obtain ⟨cw, rfl⟩ := eq_clock_of_interpStep hs h
  simp

theorem latches_of_stepsWithoutJump {s t : State} (h : StepsWithoutJump s t) :
    t.cpu.ifId = fetch s.params s.cpu.pcIf ∧ t.cpu.pcIf = s.cpu.pc ∧ t.cpu.pc = s.cpu.pc + 1 ∧ t.params = s.params := by
  obtain ⟨hs, hst, hj⟩ := h
  simpa [hj] using latches_of_interpStep hs hst

theorem latches_of_stepsWithJump {s t : State} (h : StepsWithJump s t) :
    t.cpu.ifId = fetch s.params s.cpu.pcIf ∧ t.cpu.pcIf = s.cpu.pc ∧ t.cpu.pc = s.cpu.xy ∧ t.params = s.params := by
  obtain ⟨hs, hst, hj⟩ := h
  simpa [hj] using latches_of_interpStep hs hst

/-- Settles O31, by reading the latches of two steps in a row. -/
theorem pipelineIsSteadyAfterTwoSteps : Obligations.PipelineIsSteadyAfterTwoSteps := by
  refine ⟨fun s t u hst htu => ?_, ?_, fun s t u hst htu => ?_⟩
  · obtain ⟨-, hpcIf, hpc, -⟩ := latches_of_stepsWithoutJump hst
    obtain ⟨hifId', hpcIf', hpc', -⟩ := latches_of_stepsWithoutJump htu
    refine ⟨by rw [hifId', hpcIf', hpc, hpcIf]; rfl, ?_⟩
    rw [hifId', hpc', hpc, hpcIf, BitVec.add_assoc]
    rfl
  · unfold Steady
    decide
  · obtain ⟨-, hpcIf, hpc, -⟩ := latches_of_stepsWithJump hst
    obtain ⟨hifId', hpcIf', -, -⟩ := latches_of_stepsWithoutJump htu
    exact ⟨hpc, hpcIf'.trans hpc, by rw [hifId', hpcIf]; rfl⟩

/-- Settles O32: the rows of R159's table, each from the latches of the step before it. -/
theorem jumpsHaveTwoDelaySlots : Obligations.JumpsHaveTwoDelaySlots := by
  intro s t u w ⟨hpcIf, hpc⟩ hst htu huw a target
  obtain ⟨htId, htIf, htPc, htP⟩ := latches_of_stepsWithJump hst
  obtain ⟨huId, huIf, huPc, huP⟩ := latches_of_stepsWithoutJump htu
  obtain ⟨hwId, hwIf, hwPc, -⟩ := latches_of_stepsWithoutJump huw
  have hu : u.cpu.pc = target + 1 := by rw [huPc, htPc]
  refine ⟨by rw [htId, hpcIf], by rw [htIf, hpc], htPc, by rw [huId, htIf, htP, hpc], by rw [huIf, htPc], hu,
    by rw [hwId, huIf, huP, htP, htPc], by rw [hwIf, hu], ?_⟩
  rw [hwPc, hu, BitVec.add_assoc]
  rfl

/-! ### Flags and registers -/

/-- Settles O37: the flags of the step of any control word. -/
theorem latchedFlagsChangeThroughFlagsInAlone : Obligations.LatchedFlagsChangeThroughFlagsInAlone := by
  intro s t hs h
  obtain ⟨cw, rfl⟩ := eq_clock_of_interpStep hs h
  simp only [clock_layout, clock_cpu_cw, clock_cpu_flags, clock_cpu_aluFlags, clock_cpu_aluResult]
  exact ⟨fun hfi => if_pos hfi, fun hfi => by rw [hfi]; rfl, _, rfl, rfl, rfl⟩

section
variable (layout : Layout) (cw : ControlWord) (imm : Byte) (s : State)

/-- C takes the immediate, and a register none of whose signals is asserted keeps its value (10_state.md R17, R18). -/
theorem clock_keeps_registers :
    let t := clock layout cw imm s
    let off := fun sig => asserted layout cw sig = false
    t.cpu.c = imm ∧
      (off .ai → t.cpu.a = s.cpu.a) ∧ (off .bi → t.cpu.b = s.cpu.b) ∧ (off .di → t.cpu.d = s.cpu.d) ∧
      (off .linkIn → t.cpu.g = s.cpu.g ∧ t.cpu.h = s.cpu.h) ∧
      (off .xi → off .xyInc → t.cpu.x = s.cpu.x) ∧ (off .yi → off .xyInc → t.cpu.y = s.cpu.y) ∧
      (off .ui → off .uvInc → t.cpu.u = s.cpu.u) ∧ (off .vi → off .uvInc → t.cpu.v = s.cpu.v) := by
  refine ⟨clock_cpu_c .., ?_, ?_, ?_, ?_, ?_, ?_, ?_, ?_⟩ <;> simp +contextual

/-- Each asserted input takes the bus, whatever increment the step also makes; `LinkIn` takes the link value. -/
theorem clock_latches_bus :
    let t := clock layout cw imm s
    let on := fun sig => asserted layout cw sig = true
    let bus := stepBus layout cw imm s
    (on .ai → t.cpu.a = bus) ∧ (on .bi → t.cpu.b = bus) ∧ (on .di → t.cpu.d = bus) ∧
      (on .xi → t.cpu.x = bus) ∧ (on .yi → t.cpu.y = bus) ∧ (on .ui → t.cpu.u = bus) ∧ (on .vi → t.cpu.v = bus) ∧
      (on .linkIn → t.cpu.gh = linkValue s.params.rev t.cpu.pc t.cpu.pcIf) := by
  refine ⟨?_, ?_, ?_, ?_, ?_, ?_, ?_, ?_⟩ <;> simp +contextual [ProcessorState.gh]

/-- A register of an incremented pair that takes no bus has its byte of the incremented pair (41_pipeline_step.md R126). -/
theorem clock_increments_pairs :
    let t := clock layout cw imm s
    let off := fun sig => asserted layout cw sig = false
    let on := fun sig => asserted layout cw sig = true
    (on .xyInc → off .xi → t.cpu.x = highByte (s.cpu.xy + 1)) ∧ (on .xyInc → off .yi → t.cpu.y = lowByte (s.cpu.xy + 1)) ∧
      (on .uvInc → off .ui → t.cpu.u = highByte (s.cpu.uv + 1)) ∧ (on .uvInc → off .vi → t.cpu.v = lowByte (s.cpu.uv + 1)) := by
  refine ⟨?_, ?_, ?_, ?_⟩ <;> simp +contextual

end

/-- Settles O38: the registers that no signal names, those that take the bus, and the incremented ones. -/
theorem registersChangeThroughTheirSignalsAlone : Obligations.RegistersChangeThroughTheirSignalsAlone := by
  intro s t hs h
  obtain ⟨cw, rfl⟩ := eq_clock_of_interpStep hs h
  simp only [clock_layout, clock_cpu_cw]
  exact ⟨clock_keeps_registers .., clock_latches_bus .., clock_increments_pairs ..⟩

/-! ### Reset -/

/-- The word 0xFFFFFFFF asserts no signal, whatever bit a layout gives it (30_encoding.md R58, R60). -/
theorem asserted_defaultControlWord (layout : Layout) (sig : Signal) : asserted layout defaultControlWord sig = false := by
  have hones : defaultControlWord = BitVec.allOnes 32 := rfl
  rw [asserted, hones, BitVec.getLsbD_allOnes]
  simp

/-- Settles O30: construction's record, field by field, and reset's definition. -/
theorem resetLeavesTheStatedValues : Obligations.ResetLeavesTheStatedValues := by
  refine ⟨fun params ram0 => ?_, fun ram0 s => rfl⟩
  have hcw : ∀ layout sig, asserted layout (State.construct params ram0).cpu.cw sig = false := asserted_defaultControlWord
  refine ⟨⟨rfl, rfl, rfl, rfl, rfl, rfl, rfl, rfl, rfl, rfl⟩, rfl, rfl, rfl, rfl, rfl, rfl, rfl, hcw, hcw _ .hlt, rfl, rfl,
    rfl, fun _ => rfl, rfl, fun _ => rfl, rfl, rfl, rfl, rfl, rfl, rfl, rfl, rfl, rfl⟩

end Sys2Proof.Proofs
end

section
/-! Annotations are not read by a step, so a replay follows plain interpretation (43_trace_engine.md R168, R189;
44_tracing_vm.md R205). -/

namespace Sys2Proof.Proofs

open Sys2Proof Sys2Proof.Machine Sys2Proof.Safety

/-! ### Annotations -/

theorem sameInstruction_symm {i j : Instruction} (h : SameInstruction i j) : SameInstruction j i := by
  obtain ⟨hop, himm, hpc⟩ := h
  exact ⟨hop.symm, himm.symm, hpc.symm⟩

theorem pc_eq_of_sameInstruction {i j : Instruction} (h : SameInstruction i j) : i.pc = j.pc := by
  obtain ⟨-, -, hpc⟩ := h
  exact hpc

/-- The step of a control word overwrites if_id without reading it. -/
theorem clock_ifId (layout : Layout) (cw : ControlWord) (imm : Byte) (i : Instruction) (s : State) :
    clock layout cw imm { s with cpu := { s.cpu with ifId := i } } = clock layout cw imm s := rfl

/-- Of the instruction in if_id a step reads the opcode and the immediate alone. -/
theorem interpStep_ifId {i : Instruction} {s : State} (hs : s.isHalted = false) (hop : i.opcode = s.cpu.ifId.opcode)
    (himm : i.immediate = s.cpu.ifId.immediate) :
    interpStep { s with cpu := { s.cpu with ifId := i } } = interpStep s := by
  have hs' : State.isHalted { s with cpu := { s.cpu with ifId := i } } = false := hs
  rw [interpStep, if_neg (by simp [hs']), interpStep, if_neg (by simp [hs])]
  unfold runIfId
  simp only [hop, himm]
  cases s.params.microcode with
  | image layout table => rfl
  | reference =>
    cases decodeBytes s.cpu.ifId.opcode s.cpu.ifId.immediate with
    | error e => cases e; rfl
    | ok instr =>
      obtain ⟨sigs, hexec⟩ := exec_eq_clock instr
      simp only [hexec, clock_ifId]

/-- Settles O50: a step does not read annotations, and a replayed one is the interpreter's with if_id replaced. -/
theorem annotationsChangeNoStep : Obligations.AnnotationsChangeNoStep := by
  refine ⟨fun s s' t ⟨⟨hop, himm, _⟩, heq⟩ hs hst => ?_, fun answer s t u hs hst hsu => ?_⟩
  · rw [heq, interpStep_ifId hs hop.symm himm.symm, hst]
  · rcases interpStepFetching_cases hsu with ⟨hh, -⟩ | ⟨-, t', hst', rfl⟩
    · simp [hs] at hh
    · obtain rfl : t = t' := by simpa [hst] using hst'
      refine ⟨rfl, fun hanswer => ⟨?_, rfl⟩⟩
      rw [(latches_of_interpStep hs hst).1]
      exact sameInstruction_symm hanswer

/-! ### Interpretation under another VM's bookkeeping -/

/-- The core, RAM, the parameters, the events and the peripheral draws of `w`, with the VM's bookkeeping of `v`. -/
def withCoreOf (v w : State) : State :=
  { v with cpu := w.cpu, ram := w.ram, params := w.params, events := w.events, periphDraws := w.periphDraws }

theorem clock_withCoreOf (layout : Layout) (cw : ControlWord) (imm : Byte) (v w : State) :
    clock layout cw imm (withCoreOf v w) = withCoreOf v (clock layout cw imm w) := by
  have hbus : stepBus layout cw imm (withCoreOf v w) = stepBus layout cw imm w := rfl
  simp only [clock_eq, hbus]
  rfl

/-- An interpreter step neither reads nor writes the VM's bookkeeping. -/
theorem interpStep_withCoreOf (v : State) {w w' : State} (h : interpStep w = .next w') :
    interpStep (withCoreOf v w) = .next (withCoreOf v w') := by
  rcases interpStep_congr (s := w) (s' := withCoreOf v w) rfl rfl with ⟨-, hw, hv⟩ | ⟨-, cw, hw, hv⟩
  · obtain rfl : inert w = w' := by simpa [hw] using h
    exact hv
  · obtain rfl : clock w.layout cw w.cpu.ifId.immediate w = w' := by simpa [hw] using h
    rw [hv, clock_withCoreOf]

theorem interpRun_succ {n : Nat} {w w' : State} (h : interpStep w = .next w') : interpRun (n + 1) w = interpRun n w' := by
  rw [interpRun, h, andThen_next]

/-! ### A replay follows the interpreter -/

/-- The replaying state `v` has the core, RAM, events and peripheral draws of the plain interpreter's state `w`; in if_id it
has the same pc, and the same instruction unless its own always bails; and `w` holds there what instruction memory holds. -/
structure Follows (v w : State) : Prop where
  cpu : v.cpu = { w.cpu with ifId := v.cpu.ifId }
  ram : v.ram = w.ram
  params : v.params = w.params
  events : v.events = w.events
  periphDraws : v.periphDraws = w.periphDraws
  pc : v.cpu.ifId.pc = w.cpu.ifId.pc
  sameOrFails : SameInstruction v.cpu.ifId w.cpu.ifId ∨ GuardKind.fail ∈ v.cpu.ifId.guard
  fetched : SameInstruction w.cpu.ifId (fetch w.params w.cpu.ifId.pc)

theorem Follows.eq {v w : State} (h : Follows v w) :
    v = { withCoreOf v w with cpu := { w.cpu with ifId := v.cpu.ifId } } := by
  conv_lhs => rw [show v = withCoreOf v v from rfl]
  rw [withCoreOf, withCoreOf, ← h.cpu, h.ram, h.params, h.events, h.periphDraws]

theorem Follows.isHalted {v w : State} (h : Follows v w) : v.isHalted = w.isHalted := by
  rw [h.eq]
  rfl

/-- The poll of the cancellation flag is not part of what `Follows` compares. -/
theorem Follows.after_checks {v w : State} (h : Follows v w) (cancel : Nat → Bool) :
    Follows (replayChecks cancel v).1 w := by
  rw [replayChecks_state]
  exact ⟨h.cpu, h.ram, h.params, h.events, h.periphDraws, h.pc, h.sameOrFails, h.fetched⟩

theorem Follows.after_snapshot {v w : State} (h : Follows v w) : Follows (logSnapshot v) w := by
  rw [logSnapshot_eq]
  exact ⟨h.cpu, h.ram, h.params, h.events, h.periphDraws, h.pc, h.sameOrFails, h.fetched⟩

/-- An instruction that passes the checks has no Fail guard, so it is the interpreter's. -/
theorem Follows.same_of_passes {v w : State} (h : Follows v w) {cancel : Nat → Bool}
    (hpass : (replayChecks cancel v).2 = false) : SameInstruction v.cpu.ifId w.cpu.ifId := by
  refine h.sameOrFails.resolve_right fun hfail => ?_
  have hbail : (replayChecks cancel v).2 = true := by
    unfold replayChecks
    simp only [Bool.or_eq_true, List.any_eq_true]
    exact .inr ⟨_, hfail, rfl⟩
  simp [hpass] at hbail

/-- A replayed step follows the interpreter's, where its answer is that of instruction memory or always bails. -/
theorem Follows.step {v w v' w' : State} {answer : Instruction} (h : Follows v w)
    (hsame : SameInstruction v.cpu.ifId w.cpu.ifId) (hw : w.isHalted = false)
    (hv' : interpStepFetching answer v = .next v') (hw' : interpStep w = .next w') (hpc : answer.pc = w.cpu.pcIf)
    (hanswer : SameInstruction answer (fetch w.params w.cpu.pcIf) ∨ GuardKind.fail ∈ answer.guard) : Follows v' w' := by
  obtain ⟨hop, himm, -⟩ := hsame
  have hstep : interpStep v = .next (withCoreOf v w') := by
    rw [← interpStep_withCoreOf v hw', h.eq]
    exact interpStep_ifId (s := withCoreOf v w) hw hop himm
  obtain ⟨hifId, -, -, hparams⟩ := latches_of_interpStep hw hw'
  rcases interpStepFetching_cases hv' with ⟨hv, -⟩ | ⟨-, u, hu, rfl⟩
  · rw [h.isHalted, hw] at hv
    cases hv
  · obtain rfl : withCoreOf v w' = u := by simpa [hstep] using hu
    refine ⟨rfl, rfl, rfl, rfl, rfl, ?_, ?_, ?_⟩
    · rw [hifId]
      exact hpc
    · rw [hifId]
      exact hanswer
    · rw [hifId, hparams]
      exact ⟨rfl, rfl, rfl⟩

/-- The answer of a replayed step: past the trace's end the synthetic instruction, which always bails; before it an
instruction of the trace (43_trace_engine.md R184, R185). -/
theorem replayFetch_cases (tr : Trace) (i : Nat) (a : Addr) :
    (i + 1 < tr.instrs.length ∧ replayFetch tr i a = tr.instrs.getD (i + 1) tr.head) ∨
    replayFetch tr i a = synthetic a := by
  by_cases hi : i + 1 < tr.instrs.length
  · exact .inl ⟨hi, by simp [replayFetch, hi]⟩
  · exact .inr (by simp [replayFetch, hi])

/-- From `w` on, the trace answers the fetches of the next `n` interpreter steps, from its `i`-th on, as instruction memory
does. -/
def Answers (tr : Trace) (i n : Nat) (w : State) : Prop :=
  ∀ (k : Nat) (z : State), k < n → i + k + 1 < tr.instrs.length → interpRun k w = .next z →
    SameInstruction (tr.instrs.getD (i + k + 1) tr.head) (fetch z.params z.cpu.pcIf)

theorem Answers.first {tr : Trace} {i n : Nat} {w : State} (h : Answers tr i (n + 1) w) :
    (replayFetch tr i w.cpu.pcIf).pc = w.cpu.pcIf ∧
    (SameInstruction (replayFetch tr i w.cpu.pcIf) (fetch w.params w.cpu.pcIf) ∨
      GuardKind.fail ∈ (replayFetch tr i w.cpu.pcIf).guard) := by
  rcases replayFetch_cases tr i w.cpu.pcIf with ⟨hi, heq⟩ | heq
  · have hsame := h 0 w (Nat.succ_pos n) hi rfl
    rw [Nat.add_zero, ← heq] at hsame
    exact ⟨pc_eq_of_sameInstruction hsame, .inl hsame⟩
  · rw [heq]
    exact ⟨rfl, .inr (List.mem_singleton.mpr rfl)⟩

theorem Answers.rest {tr : Trace} {i n : Nat} {w w' : State} (h : Answers tr i (n + 1) w) (hw' : interpStep w = .next w') :
    Answers tr (i + 1) n w' := by
  intro k z hk hlen hz
  have hidx : i + (k + 1) + 1 = i + 1 + k + 1 := by omega
  have := h (k + 1) z (Nat.succ_lt_succ hk) (by omega) (by rw [interpRun_succ hw', hz])
  rwa [hidx] at this

/-- How a replay that follows the interpreter ends, over the interpreter's state `u` after as many steps: `v` follows `u`, and
the replay ended at `v` by a bail of its instruction, by a halt, or at the ceiling. -/
def EndsLike (r : Replay) (u : State) : Prop :=
  ∃ v, Follows v u ∧
    ((u.isHalted = false ∧ r.result = .bailed v.cpu.ifId.pc ∧ r.state = bail v.cpu.ifId.pc v) ∨
     (r.result = .halted ∧ r.state = v) ∨
     (r.result = .ceiling ∧ r.state = v ∧ SameInstruction v.cpu.ifId u.cpu.ifId))

/-- The loop performs no fewer steps than it has performed already. -/
theorem le_steps_of_replayLoop {cancel : Nat → Bool} {tr : Trace} {fuel : Nat} :
    ∀ {i : Nat} {v : State} {r : Replay}, replayLoop cancel tr fuel i v = .next r → i ≤ r.steps := by
  induction fuel with
  | zero =>
    intro i v r h
    rcases replayLoop_cases h with ⟨-, rfl⟩ | ⟨-, -, rfl⟩ | ⟨-, f, -, hf, -⟩
    · exact le_rfl
    · exact le_rfl
    · omega
  | succ f ih =>
    intro i v r h
    rcases replayLoop_cases h with ⟨-, rfl⟩ | ⟨-, hf, -⟩ | ⟨-, f', v', hf, -, ⟨-, rfl⟩ | ⟨-, hrest⟩⟩
    · exact le_rfl
    · omega
    · exact Nat.le_succ i
    · obtain rfl : f = f' := by omega
      exact (Nat.le_succ i).trans (ih hrest)

/-- The loop of a replay that starts where the interpreter stands ends where the interpreter stands after as many steps. -/
theorem endsLike_of_replayLoop {cancel : Nat → Bool} {tr : Trace} {n : Nat} :
    ∀ {fuel i : Nat} {v w u : State} {r : Replay}, replayLoop cancel tr fuel i v = .next r → r.steps = i + n →
      interpRun n w = .next u → Follows v w → w.isHalted = false → Answers tr i n w → EndsLike r u := by
  induction n with
  | zero =>
    intro fuel i v w u r h hn hu hvw hw _
    obtain rfl : w = u := by cases hu; rfl
    have hchecked := hvw.after_checks cancel
    rcases replayLoop_cases h with ⟨-, rfl⟩ | ⟨hpass, -, rfl⟩ | ⟨-, f, v', -, -, ⟨-, rfl⟩ | ⟨-, hrest⟩⟩
    · exact ⟨_, hchecked, .inl ⟨hw, rfl, rfl⟩⟩
    · refine ⟨_, hchecked, .inr (.inr ⟨rfl, rfl, ?_⟩)⟩
      rw [replayChecks_state]
      exact hvw.same_of_passes hpass
    · simp at hn
    · have := le_steps_of_replayLoop hrest
      omega
  | succ n ih =>
    intro fuel i v w u r h hn hu hvw hw hans
    rcases replayLoop_cases h with ⟨-, rfl⟩ | ⟨-, -, rfl⟩ | ⟨hpass, f, v', -, hv', hend⟩
    · simp at hn
    · simp at hn
    obtain ⟨w', hw', hu'⟩ := andThen_eq_next.mp hu
    have hfollow : Follows (logSnapshot v') w' := by
      have hchecked := hvw.after_checks cancel
      have hsame := hvw.same_of_passes hpass
      rw [show (replayChecks cancel v).1.cpu.pcIf = w.cpu.pcIf by rw [hchecked.cpu]] at hv'
      rw [replayChecks_state] at hchecked hv'
      obtain ⟨hpc, hanswer⟩ := hans.first
      exact (hchecked.step hsame hw hv' hw' hpc hanswer).after_snapshot
    rcases hend with ⟨-, rfl⟩ | ⟨hgoes, hrest⟩
    · obtain rfl : n = 0 := by simpa using hn
      obtain rfl : w' = u := by cases hu'; rfl
      exact ⟨_, hfollow, .inr (.inl ⟨rfl, rfl⟩)⟩
    · exact ih hrest (by omega) hu' hfollow (hfollow.isHalted ▸ hgoes) (hans.rest hw')

/-! ### After the replay -/

/-- Two states agree on the core but for annotations, on RAM, the events and the peripheral draws. -/
def AgreeUpToAnnotations (t u : State) : Prop :=
  SameInstruction t.cpu.ifId u.cpu.ifId ∧ t.cpu = { u.cpu with ifId := t.cpu.ifId } ∧
    t.ram = u.ram ∧ t.events = u.events ∧ t.periphDraws = u.periphDraws

/-- A fetch anew at the pc in if_id gives the interpreter's instruction. -/
theorem Follows.refetch {v u : State} (h : Follows v u) :
    SameInstruction (fetch v.params v.cpu.ifId.pc) u.cpu.ifId := by
  rw [h.params, h.pc]
  exact sameInstruction_symm h.fetched

/-- The core after a bail and its resynchronisation; the snapshot and `skipExec` are the VM's own. -/
theorem afterReplay_cpu_of_bailed {r : Replay} {e : Addr} (h : r.result = .bailed e) :
    (afterReplay r).cpu = (resync e r.state).cpu := by
  unfold afterReplay
  rw [h]
  simp only
  split
  · rfl
  · rw [relogSnapshot_eq]

/-- The core after a replay that ended in a halt: if_id is fetched anew where it would always bail (44_tracing_vm.md R196). -/
theorem afterReplay_cpu_of_halted {r : Replay} (h : r.result = .halted) :
    (afterReplay r).cpu =
      if GuardKind.fail ∈ r.state.cpu.ifId.guard then
        { r.state.cpu with ifId := fetch r.state.params r.state.cpu.ifId.pc }
      else r.state.cpu := by
  unfold afterReplay
  rw [h]
  simp only [List.contains_iff_mem]
  split
  · rw [relogSnapshot_eq]
  · rfl

/-- Where the interpreter's state is steady or halted, the VM's state after the replay agrees with it. -/
theorem agree_of_endsLike {r : Replay} {u : State} (h : EndsLike r u) (hu : Steady u.cpu ∨ u.isHalted = true) :
    AgreeUpToAnnotations (afterReplay r) u := by
  obtain ⟨-, -, -, -, -, hram, hevents, hdraws, -⟩ := afterReplay_frame r
  obtain ⟨v, hv, hend⟩ := h
  rw [AgreeUpToAnnotations, hram, hevents, hdraws]
  rcases hend with ⟨hgoes, hres, hst⟩ | ⟨hres, hst⟩ | ⟨hres, hst, hsame⟩
  · obtain ⟨hpcIf, hpc⟩ : Steady u.cpu := hu.resolve_right (by simp [hgoes])
    rw [afterReplay_cpu_of_bailed hres, hst]
    refine ⟨hv.refetch, ?_, hv.ram, hv.events, hv.periphDraws⟩
    simp only [resync, bail]
    rw [hv.cpu]
    simp only [hv.pc, hpcIf, hpc]
  · rw [afterReplay_cpu_of_halted hres, hst]
    refine ⟨?_, ?_, hv.ram, hv.events, hv.periphDraws⟩
    · split
      · exact hv.refetch
      · next hpasses => exact hv.sameOrFails.resolve_right hpasses
    · split
      · rw [hv.cpu]
      · exact hv.cpu
  · have hcpu : (afterReplay r).cpu = v.cpu := by rw [← hst, afterReplay, hres]
    rw [hcpu, hst]
    exact ⟨hsame, hv.cpu, hv.ram, hv.events, hv.periphDraws⟩

/-- The flush of a trace at the instruction of a steady pipeline changes annotations alone. -/
theorem follows_flush {s : State} {tr : Trace} (hsteady : Steady s.cpu)
    (hfetched : SameInstruction s.cpu.ifId (fetch s.params s.cpu.ifId.pc)) (hhead : SameInstruction tr.head s.cpu.ifId) :
    Follows (flush tr (beginVmStep s)) s := by
  obtain ⟨hpcIf, hpc⟩ := hsteady
  have hheadPc := pc_eq_of_sameInstruction hhead
  refine ⟨?_, rfl, rfl, rfl, rfl, hheadPc, .inl hhead, hfetched⟩
  simp only [flush, beginVmStep_cpu, hheadPc, ← hpcIf, ← hpc]

theorem interpRun_params {n : Nat} : ∀ {s t : State}, interpRun n s = .next t → t.params = s.params := by
  induction n with
  | zero => intro s t h; cases h; rfl
  | succ n ih =>
    intro s t h
    obtain ⟨s', hs', ht⟩ := andThen_eq_next.mp h
    exact (ih ht).trans (SameVm.ofInterpStep hs').params

/-- Settles O52: the loop follows the interpreter from the flush on, and what the VM does after the loop gives if_id the
instruction the interpreter has there. -/
theorem replayEqualsInterpretation : Obligations.ReplayEqualsInterpretation := by
  intro s tr r u hcase hexec hrun hsteady hfetched hhead hanswers hend
  obtain ⟨-, -, -, hs, -⟩ := cached_of_vmCase_replay hcase
  have hans : Answers tr 0 r.steps s := by
    intro k z hk hlen hz
    rw [Nat.zero_add] at hlen ⊢
    rw [interpRun_params hz]
    exact hanswers k z hk hlen hz
  have hloop : EndsLike r u :=
    endsLike_of_replayLoop hexec (Nat.zero_add _).symm hrun (follows_flush hsteady hfetched hhead) hs hans
  have hstep : step s = .next (afterReplay r) := by
    change vmStepWith _ s = _
    rw [vmStepWith, hcase]
    simp only [replay, hexec, andThen_next]
  exact ⟨_, hstep, agree_of_endsLike hloop hend⟩

end Sys2Proof.Proofs
end

section
/-! Memory (20_memory.md): reads and writes of bytes, the one write of a step, the order of a step's events, and the
parameters, which no step changes. -/

namespace Sys2Proof.Proofs

open Sys2Proof Sys2Proof.Machine Sys2Proof.Safety

/-! ### Canonical lists are determined by their reads -/

section
variable {α : Type}

theorem risingFrom_cons {low k : Nat} {v : α} {l : List (Nat × α)} :
    risingFrom low ((k, v) :: l) = true ↔ low ≤ k ∧ risingFrom (k + 1) l = true := by
  simp [risingFrom]

theorem lookup_eq_none_of_forall_ne {q : Nat} {l : List (Nat × α)} (h : ∀ e ∈ l, e.1 ≠ q) : lookup q l = none := by
  induction l with
  | nil => rfl
  | cons e l ih =>
    obtain ⟨hkey, htail⟩ := List.forall_mem_cons.mp h
    rw [lookup_cons, if_neg hkey, ih htail]

/-- A list that reads like one whose first entry is no default lists that entry's key, so its own keys do not start later. -/
theorem le_of_reads_eq_cons {d v : α} {k low : Nat} {l l' : List (Nat × α)} (hv : v ≠ d) (hrising : risingFrom low l' = true)
    (hreads : ∀ q, (lookup q ((k, v) :: l)).getD d = (lookup q l').getD d) : low ≤ k := by
  by_contra hlt
  have hk := hreads k
  rw [lookup_cons, if_pos rfl, lookup_eq_none_of_lt hrising (by omega)] at hk
  exact hv hk

/-- Two rising lists without default entries that read alike everywhere are equal. -/
theorem eq_of_reads_eq {d : α} {l l' : List (Nat × α)} {low low' : Nat}
    (hrising : risingFrom low l = true) (hrising' : risingFrom low' l' = true)
    (hlisted : ∀ e ∈ l, e.2 ≠ d) (hlisted' : ∀ e ∈ l', e.2 ≠ d)
    (hreads : ∀ q, (lookup q l).getD d = (lookup q l').getD d) : l = l' := by
  induction l generalizing l' low low' with
  | nil =>
    cases l' with
    | nil => rfl
    | cons e' l' =>
      have hle : e'.1 + 1 ≤ e'.1 := le_of_reads_eq_cons (hlisted' e' (by simp)) rfl fun q => (hreads q).symm
      omega
  | cons e l ih =>
    obtain ⟨k, v⟩ := e
    obtain ⟨hv, htail⟩ := List.forall_mem_cons.mp hlisted
    obtain ⟨-, hrest⟩ := risingFrom_cons.mp hrising
    cases l' with
    | nil =>
      have hle : k + 1 ≤ k := le_of_reads_eq_cons hv rfl hreads
      omega
    | cons e' l' =>
      obtain ⟨k', v'⟩ := e'
      obtain ⟨hv', htail'⟩ := List.forall_mem_cons.mp hlisted'
      obtain ⟨-, hrest'⟩ := risingFrom_cons.mp hrising'
      obtain rfl : k = k' := le_antisymm
        (le_of_reads_eq_cons hv' (risingFrom_cons.mpr ⟨le_rfl, hrest⟩) fun q => (hreads q).symm)
        (le_of_reads_eq_cons hv (risingFrom_cons.mpr ⟨le_rfl, hrest'⟩) hreads)
      have hvalue : v = v' := by simpa [lookup_cons] using hreads k
      have htails : l = l' := by
        refine ih hrest hrest' htail htail' fun q => ?_
        by_cases hq : k = q
        · rw [← hq, lookup_eq_none_of_lt hrest k.lt_succ_self, lookup_eq_none_of_lt hrest' k.lt_succ_self]
        · simpa [lookup_cons, hq] using hreads q
      rw [hvalue, htails]

end

/-! ### Memories -/

theorem Memory.wf_iff {m : Memory} :
    Memory.wf m = true ↔ risingFrom 0 m = true ∧ ∀ e ∈ m, e.1 < 65536 ∧ e.2 ≠ unlistedByte := by
  simp [Memory.wf]

/-- A canonical memory lists no key beyond the addresses. -/
theorem lookup_eq_none_of_wf {m : Memory} (h : Memory.wf m = true) {q : Nat} (hq : 65536 ≤ q) : lookup q m = none := by
  obtain ⟨-, hcells⟩ := Memory.wf_iff.mp h
  refine lookup_eq_none_of_forall_ne fun e he => ?_
  have hkey := (hcells e he).1
  omega

/-- Canonical memories that read alike at every address are equal. -/
theorem Memory.ext_readByte {m m' : Memory} (h : Memory.wf m = true) (h' : Memory.wf m' = true)
    (hreads : ∀ a, readByte m a = readByte m' a) : m = m' := by
  obtain ⟨hrising, hcells⟩ := Memory.wf_iff.mp h
  obtain ⟨hrising', hcells'⟩ := Memory.wf_iff.mp h'
  refine eq_of_reads_eq hrising hrising' (fun e he => (hcells e he).2) (fun e he => (hcells' e he).2) fun q => ?_
  by_cases hq : q < 65536
  · have hread := hreads (BitVec.ofNat 16 q)
    rwa [readByte, readByte, BitVec.toNat_ofNat, Nat.mod_eq_of_lt hq] at hread
  · rw [lookup_eq_none_of_wf h (by omega), lookup_eq_none_of_wf h' (by omega)]

/-- Settles O60, by what a write does to a read, and by the canonical form. -/
theorem memoryReadsTheLastWrite : Obligations.MemoryReadsTheLastWrite :=
  ⟨fun m a v => by rw [readByte_writeByte, if_pos rfl],
    fun m a x v hx => by rw [readByte_writeByte, if_neg hx],
    Memory.wf_writeByte,
    fun _ _ => Memory.ext_readByte⟩

/-! ### The step's RAM write and its events -/

section
variable (layout : Layout) (cw : ControlWord) (imm : Byte) (s : State)

@[simp] theorem clock_ram : (clock layout cw imm s).ram =
    if asserted layout cw .mi then writeByte s.ram (phase2Uv layout cw s.cpu) (stepBus layout cw imm s) else s.ram := by
  rw [clock_eq]

/-- The event of driving the bus: a RAM read or a peripheral load where `MO` or `PO` wins, and none for a register
(41_pipeline_step.md R122, R139, R140). -/
def busEvents (bus : Byte) : List Event :=
  match winner layout cw with
  | some .mo => [.memRead s.cpu.uv bus]
  | some .po => [.periphLoad s.cpu.d s.cpu.uv bus]
  | _ => []

theorem clock_events : (clock layout cw imm s).events =
    s.events ++ [.fetch s.cpu.pcIf] ++ busEvents layout cw s (stepBus layout cw imm s)
      ++ (if asserted layout cw .j then [.willJump s.cpu.xy] else [])
      ++ (if asserted layout cw .mi then [.memWrite (phase2Uv layout cw s.cpu) (stepBus layout cw imm s)] else [])
      ++ (if asserted layout cw .pi then [.periphStore s.cpu.d (phase2Uv layout cw s.cpu) (stepBus layout cw imm s)]
        else []) := by
  rw [clock_eq]
  rfl

/-- `PO` is the last of the bus order and `MO` the one before it, so which of them wins depends on the two alone. -/
theorem busEvents_eq (bus : Byte) : busEvents layout cw s bus =
    if asserted layout cw .po then [.periphLoad s.cpu.d s.cpu.uv bus]
    else if asserted layout cw .mo then [.memRead s.cpu.uv bus] else [] := by
  unfold busEvents
  by_cases hpo : asserted layout cw .po = true
  · have hw : winner layout cw = some .po := (winner_eq layout cw).trans (if_pos hpo)
    rw [hw, if_pos hpo]
  · by_cases hmo : asserted layout cw .mo = true
    · have hw : winner layout cw = some .mo := (winner_eq layout cw).trans ((if_neg hpo).trans (if_pos hmo))
      rw [hw, if_neg hpo, if_pos hmo]
    · rw [if_neg hpo, if_neg hmo]
      split
      · next hw => exact absurd (asserted_of_winner hw) hmo
      · next hw => exact absurd (asserted_of_winner hw) hpo
      · rfl

end

/-- Settles O36: the step leaves one write or none, and a read finds that write at its own address alone. -/
theorem ramIsWrittenByMemoryInAlone : Obligations.RamIsWrittenByMemoryInAlone := by
  intro layout cw imm s t
  refine ⟨fun hmi => ?_, fun hmi => ?_⟩
  · have hram : t.ram = writeByte s.ram (phase2Uv layout cw s.cpu) (stepBus layout cw imm s) := by
      rw [clock_ram, if_pos hmi]
    refine ⟨hram, ?_, fun x hx => ?_⟩
    · rw [hram, readByte_writeByte, if_pos rfl]
    · rw [hram, readByte_writeByte, if_neg hx]
  · rw [clock_ram, hmi]
    rfl

/-- Settles O39: the events of the step of any control word, with the bus order's last two outputs settling the read. -/
theorem stepEventsComeInOrder : Obligations.StepEventsComeInOrder := by
  intro layout cw imm s t on bus
  rw [clock_events, busEvents_eq]

/-! ### The parameters -/

theorem loggedStep_params {s t : State} (h : loggedStep s = .next t) : t.params = s.params := by
  obtain ⟨u, hu, rfl⟩ := loggedStep_cases h
  exact (SameVm.ofLogSnapshot u).params.trans (SameVm.ofInterpStep hu).params

/-- The bookkeeping after an ordinary step touches no parameter. -/
theorem ordinary_params {prev : ProcessorState} {s t : State} (h : ordinary prev s = .next t) : t.params = s.params := by
  obtain ⟨u, hu, rfl⟩ := ordinary_cases h
  rw [afterOrdinary_eq]
  exact (SameVm.ofLogSnapshot u).params.trans (SameVm.ofInterpStep hu).params

/-- Settles O41, case by case of the machine's step: an interpreter step and a replay leave the VM's bookkeeping alone, and
what a case does beside them touches no parameter. -/
theorem noStepChangesAParameter : Obligations.NoStepChangesAParameter := by
  refine ⟨fun s t h => (SameVm.ofInterpStep h).params, fun s t h => ?_⟩
  rcases step_cases h with ⟨-, h⟩ | ⟨tr, -, rfl⟩ | ⟨tr, r, -, hr, rfl⟩ | ⟨-, h⟩ | ⟨-, h⟩
  · exact (loggedStep_params h).trans (beginVmStep_params s)
  · exact beginVmStep_params s
  · obtain ⟨-, -, -, -, hparams, -⟩ := afterReplay_frame r
    exact hparams.trans ((SameVm.ofExecute hr).params.trans (beginVmStep_params s))
  · exact (ordinary_params h).trans (beginVmStep_params s)
  · exact (ordinary_params h).trans (beginVmStep_params s)

end Sys2Proof.Proofs
end

section
/-! The instruction word (30_encoding.md R54; 45_reference_microcode.md R208, R209): the decoder and the encoder agree, and
the opcodes without an instruction are the unprogrammed ones. -/

namespace Sys2Proof.Proofs

open Sys2Proof Sys2Proof.Machine Sys2Proof.Safety Sys2Proof.Laws

/-! ### The decoder on opcodes -/

/-- The decoder's row at an instruction's opcode is that instruction's own. -/
theorem decodeBytes_opcodeOf (i : Instr) : decodeBytes (opcodeOf i) (immediateOf i) = .ok i := by
  cases i <;> (dsimp only [opcodeOf, immediateOf]; rfl)

/-- An instruction's opcode decodes whatever the immediate. -/
theorem exists_decodeBytes_opcodeOf (i : Instr) (imm : Byte) : ∃ j, decodeBytes (opcodeOf i) imm = .ok j := by
  cases i <;> (dsimp only [opcodeOf]; exact ⟨_, rfl⟩)

/-- What the decoder can answer: an instruction of this opcode, or the rejection that names it. -/
theorem decodeBytes_cases (opcode imm : Byte) :
    (∃ i, decodeBytes opcode imm = .ok i ∧ opcodeOf i = opcode) ∨
      decodeBytes opcode imm = .error (.unprogrammed opcode) := by
  unfold decodeBytes
  split
  case h_142 => exact .inr rfl -- the row after those of the 141 instructions
  all_goals next hop => exact .inl ⟨_, rfl, BitVec.eq_of_toNat_eq hop.symm⟩

/-- The opcode of a decoded instruction is the word's. -/
theorem opcodeOf_decodeBytes {opcode imm : Byte} {i : Instr} (h : decodeBytes opcode imm = .ok i) :
    opcodeOf i = opcode := by
  rcases decodeBytes_cases opcode imm with ⟨j, hj, hop⟩ | herr
  · rw [h] at hj
    cases hj
    exact hop
  · rw [h] at herr
    cases herr

/-! ### Decoder and encoder -/

theorem decode_instrWord (opcode imm : Byte) : decode (instrWord opcode imm) = decodeBytes opcode imm := by
  rw [decode, WordFields.opcodeField_instrWord, WordFields.immediateField_instrWord]

/-- A word is the word of its two fields. -/
theorem instrWord_fields (w : InstrWord) : instrWord (opcodeField w) (immediateField w) = w := pairOf_bytes w

/-- Settles O1: the word's fields are the instruction's opcode and immediate, and the decoder has the instruction there. -/
theorem decodeOfEncodeIsTheInstruction : Obligations.DecodeOfEncodeIsTheInstruction := by
  intro i
  rw [encode, decode_instrWord, decodeBytes_opcodeOf]

/-- Settles O2: the decoded instruction has the word's opcode and the word's immediate. -/
theorem encodeOfDecodeIsTheWord : Obligations.EncodeOfDecodeIsTheWord := by
  intro w i h
  rw [encode, opcodeOf_decodeBytes h, immediateOf_decodeBytes h, instrWord_fields]

/-- Settles O4, row by row of the decoder's table. -/
theorem sampleWordsDecode : Obligations.SampleWordsDecode :=
  ⟨rfl, rfl, rfl, rfl, rfl, rfl, rfl, rfl, rfl, rfl, rfl, rfl, rfl⟩

/-! ### The unprogrammed opcodes -/

/-- No instruction has an opcode of R209's list. -/
theorem isUnprogrammed_opcodeOf (i : Instr) : isUnprogrammed (opcodeOf i) = false := by
  cases i <;> rfl

/-- Each of the 256 opcodes is on R209's list, or it decodes with the immediate 0x00. -/
theorem isOk_decodeBytes_zero :
    ∀ opcode : Byte, isUnprogrammed opcode = false → (decodeBytes opcode 0x00).isOk = true := by
  decide +kernel

/-- An opcode outside R209's list is some instruction's. -/
theorem exists_opcodeOf_of_programmed {opcode : Byte} (h : isUnprogrammed opcode = false) : ∃ i, opcodeOf i = opcode := by
  rcases decodeBytes_cases opcode 0x00 with ⟨i, -, hop⟩ | herr
  · exact ⟨i, hop⟩
  · have hok := isOk_decodeBytes_zero opcode h
    rw [herr] at hok
    cases hok

/-- An opcode is on R209's list exactly where the decoder rejects it. -/
theorem isUnprogrammed_iff (opcode imm : Byte) :
    isUnprogrammed opcode = true ↔ decodeBytes opcode imm = .error (.unprogrammed opcode) := by
  refine ⟨fun h => ?_, fun h => ?_⟩
  · refine (decodeBytes_cases opcode imm).resolve_left ?_
    rintro ⟨i, -, rfl⟩
    rw [isUnprogrammed_opcodeOf] at h
    cases h
  · by_contra hno
    obtain ⟨i, rfl⟩ := exists_opcodeOf_of_programmed (Bool.eq_false_of_not_eq_true hno)
    obtain ⟨j, hj⟩ := exists_decodeBytes_opcodeOf i imm
    rw [hj] at h
    cases h

theorem referenceEntry_of_unprogrammed :
    ∀ opcode : Byte, isUnprogrammed opcode = true → referenceEntry opcode = .same defaultControlWord := by
  decide +kernel

/-- The entries of an unprogrammed opcode are the default control word, whatever the flags. -/
theorem referenceWord_of_unprogrammed {opcode : Byte} (h : isUnprogrammed opcode = true) (f : Flags) :
    referenceWord opcode f = defaultControlWord := by
  rw [referenceWord, referenceEntry_of_unprogrammed opcode h]
  rfl

theorem interpStep_of_not_halted {s : State} (h : s.isHalted = false) : interpStep s = runIfId s := by
  simp [interpStep, h]

/-- Under the reference microcode an unprogrammed opcode has the step of `NOP`. -/
theorem runIfId_of_unprogrammed {s : State} (hm : s.params.microcode = .reference)
    (h : isUnprogrammed s.cpu.ifId.opcode = true) : runIfId s = exec (.nop s.cpu.ifId.immediate) s := by
  simp only [runIfId, hm, (isUnprogrammed_iff s.cpu.ifId.opcode s.cpu.ifId.immediate).mp h]
  rfl

/-- Settles O3: the decoder's rejections, the table's entries and the steps of the opcodes on R209's list. -/
theorem unprogrammedOpcodesRunAsNop : Obligations.UnprogrammedOpcodesRunAsNop :=
  ⟨isUnprogrammed_iff,
    fun _ f h => ⟨referenceWord_of_unprogrammed h f, asserted_defaultControlWord Layout.reference⟩,
    fun s hm hs h => ⟨(interpStep_of_not_halted hs).trans (runIfId_of_unprogrammed hm h), interpStep_next s⟩⟩

end Sys2Proof.Proofs
end

section
/-! Control words (30_encoding.md R58 to R64): which bits a signal set clears, what the bits of a word change, and which bus
output wins (41_pipeline_step.md R122). -/

namespace Sys2Proof.Proofs

open Sys2Proof Sys2Proof.Machine Sys2Proof.Safety

/-! ### The word of a signal set -/

/-- Clearing bit `b` of a word leaves every other bit. -/
theorem getLsbD_clear (w : ControlWord) (b k : Nat) (hb : b < 32) :
    (w &&& ~~~(1#32 <<< b)).getLsbD k = (w.getLsbD k && !decide (b = k)) := by
  have hone : 1#32 <<< b = BitVec.twoPow 32 b := rfl
  rw [hone, BitVec.getLsbD_and, BitVec.getLsbD_not, BitVec.getLsbD_twoPow]
  by_cases hk : k < 32
  · simp [hk, hb]
  · simp [BitVec.getLsbD_of_ge w k (Nat.le_of_not_lt hk)]

/-- Clearing the bits of a list of signals, one after the other. -/
theorem getLsbD_foldl_clear (layout : Layout) (sigs : List Signal) (w : ControlWord) (k : Nat) :
    (sigs.foldl (fun w sig => w &&& ~~~(1#32 <<< (layout.bit sig).val)) w).getLsbD k =
      (w.getLsbD k && !(sigs.any fun sig => decide ((layout.bit sig).val = k))) := by
  induction sigs generalizing w with
  | nil => simp
  | cons sig sigs ih =>
    rw [List.foldl_cons, ih, getLsbD_clear _ _ _ (layout.bit sig).isLt, List.any_cons, Bool.not_or, Bool.and_assoc]

/-- A bit of the word of a signal set is 0 exactly where it carries a signal of the set. -/
theorem getLsbD_controlWordIn (layout : Layout) (sigs : List Signal) (k : Nat) :
    (controlWordIn layout sigs).getLsbD k =
      (decide (k < 32) && !(sigs.any fun sig => decide ((layout.bit sig).val = k))) := by
  rw [controlWordIn, getLsbD_foldl_clear]
  exact congrArg (· && _) BitVec.getLsbD_allOnes

/-- A signal can be read back from its number. -/
theorem ofNat_index (sig : Signal) : Signal.ofNat sig.index = sig := by
  cases sig <;> rfl

/-- Under the reference layout each signal has a bit of its own. -/
theorem reference_bit_inj {sig sig' : Signal} :
    (Layout.reference.bit sig').val = (Layout.reference.bit sig).val ↔ sig' = sig := by
  refine ⟨fun h => ?_, fun h => by rw [h]⟩
  rw [reference_bit, reference_bit] at h
  rw [← ofNat_index sig', h, ofNat_index]

/-- The word of a signal set asserts the signals of the set and no others. -/
theorem asserted_controlWord (sigs : List Signal) (sig : Signal) :
    asserted Layout.reference (controlWord sigs) sig = sigs.contains sig := by
  rw [asserted, controlWord, getLsbD_controlWordIn]
  simp [reference_bit_inj, List.any_eq]

/-- Settles O5: the bits that a set of signals clears, and R64's examples. -/
theorem controlWordAssertsExactlyItsSignals : Obligations.ControlWordAssertsExactlyItsSignals :=
  ⟨asserted_controlWord, getLsbD_controlWordIn Layout.reference, rfl, rfl, rfl, rfl⟩

/-! ### The bits that carry a signal -/

/-- Two words that agree on every bit a signal has assert the same signals. -/
theorem asserted_congr {layout : Layout} {cw cw' : ControlWord}
    (h : ∀ sig, cw.getLsbD (layout.bit sig).val = cw'.getLsbD (layout.bit sig).val) :
    asserted layout cw' = asserted layout cw :=
  funext fun sig => by rw [asserted, asserted, h]

/-- Apart from being held, a word acts on the step through the signals it asserts alone. -/
theorem clock_congr {layout : Layout} {cw cw' : ControlWord} (h : asserted layout cw' = asserted layout cw) (imm : Byte)
    (s : State) :
    clock layout cw' imm s = { clock layout cw imm s with cpu := { (clock layout cw imm s).cpu with cw := cw' } } := by
  have hwinner : winner layout cw' = winner layout cw := by rw [winner, winner, h]
  have hbus : stepBus layout cw' imm s = stepBus layout cw imm s := by rw [stepBus_eq, stepBus_eq, hwinner, h]
  have huv : phase2Uv layout cw' s.cpu = phase2Uv layout cw s.cpu := by rw [phase2Uv, phase2Uv, h]
  rw [clock_eq, clock_eq, hwinner, hbus, huv, h]

/-- The spare bits 28 to 31 of every entry of the reference microcode are 1. -/
theorem getLsbD_referenceWord_spare :
    ∀ (opcode : Byte) (carry equal : Bool) (j : Fin 4),
      (referenceWord opcode ⟨carry, equal⟩).getLsbD (28 + j) = true := by
  decide +kernel

/-- Settles O6: the step reads a word through its signals' bits, and the table's spare bits are checked entry by entry. -/
theorem spareControlBitsHaveNoEffect : Obligations.SpareControlBitsHaveNoEffect := by
  refine ⟨fun layout cw cw' imm s h => clock_congr (asserted_congr h) imm s, fun opcode f k hlow hhigh => ?_⟩
  obtain ⟨j, rfl⟩ := Nat.exists_eq_add_of_le hlow
  exact getLsbD_referenceWord_spare opcode f.carry f.equal ⟨j, by omega⟩

/-! ### The bus -/

/-- The last asserted output of the order wins. -/
theorem winner_eq_some_of_last {layout : Layout} {cw : ControlWord} {before after : List BusOutput} {o : BusOutput}
    (horder : outputOrder = before ++ o :: after) (ho : asserted layout cw o.signal = true)
    (hafter : ∀ o' ∈ after, asserted layout cw o'.signal = false) : winner layout cw = some o := by
  have hnone : after.reverse.find? (fun o => asserted layout cw o.signal) = none := by
    simpa [List.find?_eq_none] using hafter
  rw [winner, horder, List.reverse_append, List.reverse_cons, List.append_assoc, List.find?_append, hnone]
  simp [ho]

theorem winner_eq_none {layout : Layout} {cw : ControlWord} (h : ∀ o : BusOutput, asserted layout cw o.signal = false) :
    winner layout cw = none := by
  simp [winner, h]

/-- With no output asserted the bus is 0x00. -/
theorem stepBus_of_winner_none {layout : Layout} {cw : ControlWord} (h : winner layout cw = none) (imm : Byte) (s : State) :
    stepBus layout cw imm s = 0x00 := by
  rw [stepBus_eq, h]

/-- The bus has the winner's value, where `EO` drives the ALU's result with the carry input the word selects. -/
theorem stepBus_of_winner {layout : Layout} {cw : ControlWord} {o : BusOutput} (h : winner layout cw = some o) (imm : Byte)
    (s : State) :
    stepBus layout cw imm s =
      if o = .eo then (stepAlu s imm (!asserted layout cw .carryIn)).result else sourceValue s imm o := by
  rw [stepBus_eq, h]
  cases o <;> rfl

/-- Settles O35: which output wins, the empty bus, and the winner's value. -/
theorem lastAssertedOutputWins : Obligations.LastAssertedOutputWins := by
  refine ⟨fun layout cw before after o => winner_eq_some_of_last, fun layout cw imm s h => ?_, fun layout cw imm s o h => ?_⟩
  · have hbus := stepBus_of_winner_none (winner_eq_none h) imm s
    exact ⟨winner_eq_none h, hbus, fun hai => by rw [clock_cpu_a, if_pos hai, hbus]⟩
  · exact ⟨asserted_of_winner h, stepBus_of_winner h imm s⟩

/-- The step of a word that asserts no signal has the effects every step has, and no others. -/
theorem clock_of_no_signal {layout : Layout} {cw : ControlWord} (h : ∀ sig, asserted layout cw sig = false) (imm : Byte)
    (s : State) : clock layout cw imm s = common s imm cw true := by
  rw [clock_eq, winner_eq_none fun o => h o.signal]
  simp [h, common]

/-- Settles O40: the default word asserts no signal, whatever the layout. -/
theorem defaultControlWordIsTheNoOp : Obligations.DefaultControlWordIsTheNoOp := by
  intro layout imm s
  have hoff : ∀ sig, asserted layout defaultControlWord sig = false := asserted_defaultControlWord layout
  exact ⟨clock_of_no_signal hoff imm s, stepBus_of_winner_none (winner_eq_none fun o => hoff o.signal) imm s⟩

end Sys2Proof.Proofs
end

section
/-! The decoder table (10_state.md R25; 30_encoding.md R56, R59, R67): its addresses, its load and store, and the step as that
of the entry at the opcode and the latched flags, in the reference microcode and in a loaded image. -/

namespace Sys2Proof.Proofs

open Sys2Proof Sys2Proof.Machine Sys2Proof.Safety Sys2Proof.Laws

/-! ### The meanings and the reference microcode -/

/-- The entries of the conditional jumps: `J` under the flags that meet the condition (45_reference_microcode.md R235 to
R238). -/
theorem referenceWord_conditionalJumps (f : Flags) :
    referenceWord 0xD1 f = controlWord (if f.carry then [.j] else []) ∧
    referenceWord 0xD2 f = controlWord (if !f.carry then [.j] else []) ∧
    referenceWord 0xD3 f = controlWord (if f.equal then [.j] else []) ∧
    referenceWord 0xD4 f = controlWord (if !f.equal then [.j] else []) := by
  obtain ⟨carry, equal⟩ := f
  cases carry <;> cases equal <;> exact ⟨rfl, rfl, rfl, rfl⟩

/-- Each meaning is the step of the instruction's entry in the reference microcode: the printed word is the word of the signal
set that the meaning is written from. -/
theorem exec_eq_clock_referenceWord (i : Instr) (s : State) :
    exec i s = .next (clock Layout.reference (referenceWord (opcodeOf i) s.cpu.flags) (immediateOf i) s) := by
  obtain ⟨hjc, hjnc, hje, hjne⟩ := referenceWord_conditionalJumps s.cpu.flags
  cases i
  case jc => rw [opcodeOf, hjc]; rfl
  case jnc => rw [opcodeOf, hjnc]; rfl
  case je => rw [opcodeOf, hje]; rfl
  case jne => rw [opcodeOf, hjne]; rfl
  all_goals dsimp only [opcodeOf, immediateOf]; rfl

/-- Under the reference microcode a step runs the entry of the opcode in if_id, programmed or not. -/
theorem runIfId_reference {s : State} (hm : s.params.microcode = .reference) :
    runIfId s =
      .next (clock Layout.reference (referenceWord s.cpu.ifId.opcode s.cpu.flags) s.cpu.ifId.immediate s) := by
  rcases decodeBytes_cases s.cpu.ifId.opcode s.cpu.ifId.immediate with ⟨i, hi, hop⟩ | herr
  · simp only [runIfId, hm, hi]
    rw [exec_eq_clock_referenceWord, hop, immediateOf_decodeBytes hi]
  · have hword := referenceWord_of_unprogrammed ((isUnprogrammed_iff _ _).mpr herr) s.cpu.flags
    simp only [runIfId, hm, herr, hword]
    rfl

/-! ### Addresses, loads and stores -/

/-- Flag bits above an 8-bit opcode add to it. -/
theorem toNat_or_opcode {high : Nat} (h : high < 4) (opcode : Byte) :
    (BitVec.ofNat 10 (2 ^ 8 * high) ||| opcode.setWidth 10).toNat = 2 ^ 8 * high + opcode.toNat := by
  have hop := opcode.isLt
  rw [BitVec.toNat_or, BitVec.toNat_setWidth, BitVec.toNat_ofNat, Nat.mod_eq_of_lt (by omega), Nat.mod_eq_of_lt (by omega),
    Nat.two_pow_add_eq_or_of_lt hop]

/-- The decoder address has carryFlag in bit 9, equalFlag in bit 8 and the opcode below (30_encoding.md R56). -/
theorem toNat_decoderAddress (f : Flags) (opcode : Byte) : (decoderAddress f opcode).toNat =
    (if f.carry then 512 else 0) + (if f.equal then 256 else 0) + opcode.toNat := by
  obtain ⟨carry, equal⟩ := f
  cases carry <;> cases equal
  · exact toNat_or_opcode (high := 0) (by decide) opcode
  · exact toNat_or_opcode (high := 1) (by decide) opcode
  · exact toNat_or_opcode (high := 2) (by decide) opcode
  · exact toNat_or_opcode (high := 3) (by decide) opcode

theorem getLsbD_decoderAddress_nine (f : Flags) (opcode : Byte) : (decoderAddress f opcode).getLsbD 9 = f.carry := by
  obtain ⟨carry, equal⟩ := f
  cases carry <;> simp [decoderAddress]

theorem getLsbD_decoderAddress_eight (f : Flags) (opcode : Byte) : (decoderAddress f opcode).getLsbD 8 = f.equal := by
  simp [decoderAddress]

theorem setWidth_decoderAddress (f : Flags) (opcode : Byte) : (decoderAddress f opcode).setWidth 8 = opcode := by
  have hlt := opcode.isLt
  apply BitVec.eq_of_toNat_eq
  rw [BitVec.toNat_setWidth, toNat_decoderAddress]
  split_ifs <;> omega

/-- The flags and the opcode can be read back from the address, so it determines them. -/
theorem decoderAddress_inj {f g : Flags} {opcode op : Byte} (h : decoderAddress g op = decoderAddress f opcode) :
    (g, op) = (f, opcode) := by
  have hcarry : g.carry = f.carry := by
    rw [← getLsbD_decoderAddress_nine g op, h, getLsbD_decoderAddress_nine]
  have hequal : g.equal = f.equal := by
    rw [← getLsbD_decoderAddress_eight g op, h, getLsbD_decoderAddress_eight]
  have hopcode : op = opcode := by
    rw [← setWidth_decoderAddress g op, h, setWidth_decoderAddress]
  exact congrArg₂ Prod.mk (congrArg₂ Flags.mk hcarry hequal) hopcode

theorem loadEntry_storeEntry_self (table : DecoderTable) (a : BitVec 10) (v : ControlWord) :
    loadEntry (storeEntry table a v) a = v :=
  Vector.getElem_set_self ..

theorem loadEntry_storeEntry_of_ne {a b : BitVec 10} (h : b ≠ a) (table : DecoderTable) (v : ControlWord) :
    loadEntry (storeEntry table a v) b = loadEntry table b :=
  Vector.getElem_set_ne _ _ fun hab => h (BitVec.eq_of_toNat_eq hab.symm)

/-- Under a loaded image a step runs the image's entry at the opcode and the latched flags. -/
theorem runIfId_image {s : State} {layout : Layout} {table : DecoderTable}
    (hm : s.params.microcode = .image layout table) :
    runIfId s =
      .next (clock layout (loadEntry table (decoderAddress s.cpu.flags s.cpu.ifId.opcode)) s.cpu.ifId.immediate s) := by
  simp only [runIfId, hm]

/-- Settles O7: the step of either microcode, the address, and the round trip through a table. -/
theorem meaningsAreTheRomDrivenStep : Obligations.MeaningsAreTheRomDrivenStep := by
  refine ⟨fun s hm hs => (interpStep_of_not_halted hs).trans (runIfId_reference hm), fun s layout table w hm hs hw => ?_,
    toNat_decoderAddress, fun table f g opcode op v => ⟨loadEntry_storeEntry_self .., fun hne =>
      loadEntry_storeEntry_of_ne (fun heq => hne (decoderAddress_inj heq)) table v⟩⟩
  rw [← toNat_decoderAddress] at hw
  obtain ⟨-, rfl⟩ := Vector.getElem?_eq_some_iff.mp hw
  exact (interpStep_of_not_halted hs).trans (runIfId_image hm)

/-! ### The reference microcode as an image -/

/-- The entries of the reference table are the words of the reference microcode. -/
theorem loadEntry_referenceTable (f : Flags) (opcode : Byte) :
    loadEntry referenceTable (decoderAddress f opcode) = referenceWord opcode f := by
  have hopcode : BitVec.ofNat 8 (decoderAddress f opcode).toNat = opcode := setWidth_decoderAddress f opcode
  have hcarry : (decoderAddress f opcode).toNat.testBit 9 = f.carry := getLsbD_decoderAddress_nine f opcode
  have hequal : (decoderAddress f opcode).toNat.testBit 8 = f.equal := getLsbD_decoderAddress_eight f opcode
  rw [referenceTable, loadEntry_tableOfEntries, hopcode, hcarry, hequal]

/-- The state with another microcode. -/
def withMicrocode (m : Microcode) (s : State) : State := { s with params := { s.params with microcode := m } }

/-- The step of a control word does not read the microcode. -/
theorem clock_withMicrocode (m : Microcode) (layout : Layout) (cw : ControlWord) (imm : Byte) (s : State) :
    clock layout cw imm (withMicrocode m s) = withMicrocode m (clock layout cw imm s) := by
  have hbus : stepBus layout cw imm (withMicrocode m s) = stepBus layout cw imm s := by
    rw [stepBus_eq, stepBus_eq]
    rfl
  rw [clock_eq, clock_eq, hbus]
  rfl

/-- Every step with the reference microcode loaded is the built-in one's: the image has the same layout, so it is halted alike,
and its entry at the opcode and the flags is the same word. -/
theorem interpStep_referenceTable {s t : State} (hm : s.params.microcode = .reference) (h : interpStep s = .next t) :
    interpStep (withMicrocode (.image Layout.reference referenceTable) s) =
      .next (withMicrocode (.image Layout.reference referenceTable) t) := by
  have hlayout : s.layout = Layout.reference := by rw [State.layout, hm, Microcode.layout]
  have hhalted : (withMicrocode (.image Layout.reference referenceTable) s).isHalted = s.isHalted := by
    rw [State.isHalted, State.isHalted, hlayout]
    rfl
  cases hs : s.isHalted with
  | true =>
    rw [interpStep, if_pos hs] at h
    cases h
    rw [interpStep, if_pos (hhalted.trans hs)]
    rfl
  | false =>
    rw [interpStep_of_not_halted hs, runIfId_reference hm] at h
    cases h
    rw [interpStep_of_not_halted (hhalted.trans hs), runIfId_image rfl, ← clock_withMicrocode, ← loadEntry_referenceTable]
    rfl

/-- Settles O8, with the parameters that no step changes. -/
theorem loadedReferenceTableStepsAlike : Obligations.LoadedReferenceTableStepsAlike := by
  intro s t hm h
  refine (interpStep_referenceTable hm h).trans ?_
  rw [withMicrocode, (SameVm.ofInterpStep h).params]

end Sys2Proof.Proofs
end

section
/-! Loads and constructions (30_encoding.md R65, R66; 44_tracing_vm.md R207; 60_exceptions.md R363, R364): when an image is
refused, and what the table or the program of an accepted one holds. -/

namespace Sys2Proof.Proofs

open Sys2Proof Sys2Proof.Machine Sys2Proof.Safety

/-! ### Decoder-ROM images -/

/-- Four banks are acceptable: of equal length, with at least 1024 entries (30_encoding.md R65). -/
def BanksValid (b0 b1 b2 b3 : List Byte) : Prop :=
  b0.length = b1.length ∧ b0.length = b2.length ∧ b0.length = b3.length ∧ 1024 ≤ b0.length

theorem banksOk_iff {b0 b1 b2 b3 : List Byte} : banksOk b0 b1 b2 b3 = true ↔ BanksValid b0 b1 b2 b3 := by
  simp [banksOk, BanksValid, and_assoc]

theorem decoderFromBanks_of_valid {b0 b1 b2 b3 : List Byte} (h : BanksValid b0 b1 b2 b3) :
    decoderFromBanks b0 b1 b2 b3 = some (tableOfEntries (bankEntry b0 b1 b2 b3)) :=
  if_pos (banksOk_iff.mpr h)

theorem decoderFromBanks_of_not_valid {b0 b1 b2 b3 : List Byte} (h : ¬ BanksValid b0 b1 b2 b3) :
    decoderFromBanks b0 b1 b2 b3 = none :=
  if_neg (mt banksOk_iff.mp h)

/-- Byte k of four bytes put together is bits [8k+7:8k] of the word. -/
theorem extractLsb'_append_bytes (v3 v2 v1 v0 : Byte) :
    (v3 ++ v2 ++ v1 ++ v0).extractLsb' 0 8 = v0 ∧ (v3 ++ v2 ++ v1 ++ v0).extractLsb' 8 8 = v1 ∧
    (v3 ++ v2 ++ v1 ++ v0).extractLsb' 16 8 = v2 ∧ (v3 ++ v2 ++ v1 ++ v0).extractLsb' 24 8 = v3 := by
  refine ⟨BitVec.extractLsb'_append_eq_right, ?_, ?_, ?_⟩
  · rw [BitVec.extractLsb'_append_eq_of_le (by decide)]
    exact BitVec.extractLsb'_append_eq_right
  · rw [BitVec.extractLsb'_append_eq_of_le (by decide), BitVec.extractLsb'_append_eq_of_le (by decide)]
    exact BitVec.extractLsb'_append_eq_right
  · rw [BitVec.extractLsb'_append_eq_of_le (by decide), BitVec.extractLsb'_append_eq_of_le (by decide)]
    exact BitVec.extractLsb'_append_eq_left

theorem getElem?_eq_some_getD {α : Type} {l : List α} {i : Nat} (h : i < l.length) (d : α) : l[i]? = some (l.getD i d) := by
  rw [List.getD_eq_getElem _ _ h, List.getElem?_eq_getElem h]

/-- Entry i of an image's table has byte i of file k in bits [8k+7:8k]. -/
theorem getElem?_banks {b0 b1 b2 b3 : List Byte} (h : BanksValid b0 b1 b2 b3) (a : BitVec 10) :
    let entry := loadEntry (tableOfEntries (bankEntry b0 b1 b2 b3)) a
    b0[a.toNat]? = some (entry.extractLsb' 0 8) ∧ b1[a.toNat]? = some (entry.extractLsb' 8 8) ∧
    b2[a.toNat]? = some (entry.extractLsb' 16 8) ∧ b3[a.toNat]? = some (entry.extractLsb' 24 8) := by
  intro entry
  obtain ⟨h1, h2, h3, hlen⟩ := h
  have ha : a.toNat < 1024 := a.isLt
  have hentry : entry = bankEntry b0 b1 b2 b3 a.toNat := loadEntry_tableOfEntries ..
  obtain ⟨hv0, hv1, hv2, hv3⟩ := extractLsb'_append_bytes (b3.getD a.toNat 0xFF) (b2.getD a.toNat 0xFF)
    (b1.getD a.toNat 0xFF) (b0.getD a.toNat 0xFF)
  rw [hentry, bankEntry, hv0, hv1, hv2, hv3]
  exact ⟨getElem?_eq_some_getD (by omega) _, getElem?_eq_some_getD (by omega) _, getElem?_eq_some_getD (by omega) _,
    getElem?_eq_some_getD (by omega) _⟩

/-- Banks that are not acceptable are refused by a load, and are the construction error (60_exceptions.md R363, R364). -/
theorem banks_refused {b0 b1 b2 b3 : List Byte} (h : ¬ BanksValid b0 b1 b2 b3) (params : Params) (layout : Layout)
    (ram0 : Memory) (s : State) :
    loadRom layout b0 b1 b2 b3 ram0 s = .refused .loadRefused ∧
      constructFromBanks params layout b0 b1 b2 b3 ram0 = .fault .constructionError := by
  have hnone := decoderFromBanks_of_not_valid h
  exact ⟨by rw [loadRom, hnone], by rw [constructFromBanks, hnone]⟩

/-- Acceptable banks make a new VM around their table. -/
theorem banks_loaded {b0 b1 b2 b3 : List Byte} (h : BanksValid b0 b1 b2 b3) (params : Params) (layout : Layout)
    (ram0 : Memory) (s : State) :
    let table := tableOfEntries (bankEntry b0 b1 b2 b3)
    constructFromBanks params layout b0 b1 b2 b3 ram0 =
        .next (State.construct { params with microcode := .image layout table } ram0) ∧
      loadRom layout b0 b1 b2 b3 ram0 s = .next (newVm { s.params with microcode := .image layout table } ram0 s) := by
  have hsome := decoderFromBanks_of_valid h
  exact ⟨by rw [constructFromBanks, hsome], by rw [loadRom, hsome]⟩

/-! ### Tables entry by entry -/

/-- Fewer than 1024 entries are the construction error (60_exceptions.md R364). -/
theorem constructFromEntries_of_lt {entries : List ControlWord} (h : entries.length < 1024) (params : Params)
    (layout : Layout) (ram0 : Memory) :
    constructFromEntries params layout entries ram0 = .fault .constructionError := by
  have hnone : tableOfList entries = none := if_neg (by simpa [tableOk] using h)
  rw [constructFromEntries, hnone]

/-- Enough entries make a table that has them at its addresses. -/
theorem constructFromEntries_of_le {entries : List ControlWord} (h : 1024 ≤ entries.length) (params : Params)
    (layout : Layout) (ram0 : Memory) :
    ∃ table : DecoderTable, (∀ a : BitVec 10, entries[a.toNat]? = some (loadEntry table a)) ∧
      constructFromEntries params layout entries ram0 =
        .next (State.construct { params with microcode := .image layout table } ram0) := by
  have hsome := tableOfList_eq_some.mpr ⟨h, rfl⟩
  refine ⟨_, fun a => ?_, by rw [constructFromEntries, hsome]⟩
  rw [loadEntry_tableOfEntries]
  exact getElem?_eq_some_getD (a.isLt.trans_le h) _

/-! ### Program images -/

/-- A byte plane's memory answers its bytes, and 0x00 beyond them (30_encoding.md R66). -/
theorem readByte_memoryFrom (l : List Byte) (a : Addr) : readByte (memoryFrom 0 l) a = l.getD a.toNat 0x00 :=
  lookup_memoryFrom l 0 a.toNat (Nat.zero_le _)

theorem programFromPlanes_of_valid {upper lower : List Byte} (hlength : upper.length = lower.length)
    (hle : upper.length ≤ 65536) :
    programFromPlanes upper lower = some (memoryFrom 0 upper, memoryFrom 0 lower) :=
  if_pos ⟨hlength, hle⟩

/-- Planes of unequal length, or with more than 65536 entries, are refused (30_encoding.md R66, 60_exceptions.md R363). -/
theorem loadProgram_refused {upper lower : List Byte} (h : upper.length ≠ lower.length ∨ 65536 < upper.length)
    (ram0 : Memory) (s : State) : loadProgram upper lower ram0 s = .refused .loadRefused := by
  have hnone : programFromPlanes upper lower = none := if_neg (by omega)
  rw [loadProgram, hnone]

/-- Instruction memory made of two byte planes has their bytes as opcodes and immediates. -/
theorem fetch_memoryFrom (params : Params) (upper lower : List Byte) (a : Addr) :
    fetch { params with progUpper := memoryFrom 0 upper, progLower := memoryFrom 0 lower } a =
      { opcode := upper.getD a.toNat 0x00, immediate := lower.getD a.toNat 0x00, pc := a
        disassembly := none, guard := [], isBreakpoint := false } := by
  rw [fetch, readByte_memoryFrom, readByte_memoryFrom]

/-- Settles O59: the decoder-ROM images, the tables given entry by entry, and the program images, each refused or whole. -/
theorem loadsAreRefusedOrWhole : Obligations.LoadsAreRefusedOrWhole := by
  refine ⟨fun params layout b0 b1 b2 b3 ram0 s => ⟨fun h => banks_refused h params layout ram0 s, fun h => ?_⟩,
    fun params layout entries ram0 => ⟨fun h => constructFromEntries_of_lt h params layout ram0,
      fun h => constructFromEntries_of_le h params layout ram0⟩,
    fun upper lower ram0 s => ⟨fun h => loadProgram_refused h ram0 s, fun hlength hle => ?_⟩⟩
  · exact ⟨_, getElem?_banks h, banks_loaded h params layout ram0 s⟩
  · refine ⟨_, _, ?_, Memory.wf_memoryFrom upper hle, Memory.wf_memoryFrom lower (hlength ▸ hle),
      fetch_memoryFrom s.params upper lower⟩
    rw [loadProgram, programFromPlanes_of_valid hlength hle]
    rfl

end Sys2Proof.Proofs
end

section
/-! The ALU (40_alu.md): its two slices as one closed form on bytes, the function table in both modes, and what software
uses of it. -/

namespace Sys2Proof.Proofs

open Sys2Proof Sys2Proof.Machine Sys2Proof.Safety

/-! ### The two terms, at any width -/

/-- The first term (R75), by the selector's bits 0 and 1: `sliceT1` on 4 bits, R80's T1 on 8. -/
def firstTerm {w : Nat} (a b : BitVec w) (s0 s1 : Bool) : BitVec w :=
  a ||| (if s0 then b else 0) ||| (if s1 then ~~~b else 0)

/-- The second term (R75), by the selector's bits 2 and 3: `sliceT2` on 4 bits, R80's T2 on 8. -/
def secondTerm {w : Nat} (a b : BitVec w) (s2 s3 : Bool) : BitVec w :=
  (if s2 then a &&& ~~~b else 0) ||| (if s3 then a &&& b else 0)

/-- The terms are bitwise, so those of a byte are those of its two halves. -/
theorem firstTerm_append {v w : Nat} (ah bh : BitVec v) (al bl : BitVec w) (s0 s1 : Bool) :
    firstTerm (ah ++ al) (bh ++ bl) s0 s1 = firstTerm ah bh s0 s1 ++ firstTerm al bl s0 s1 := by
  cases s0 <;> cases s1 <;> simp [firstTerm, BitVec.not_append, BitVec.or_append]

theorem secondTerm_append {v w : Nat} (ah bh : BitVec v) (al bl : BitVec w) (s2 s3 : Bool) :
    secondTerm (ah ++ al) (bh ++ bl) s2 s3 = secondTerm ah bh s2 s3 ++ secondTerm al bl s2 s3 := by
  cases s2 <;> cases s3 <;> simp [secondTerm, BitVec.not_append, BitVec.or_append, BitVec.and_append]

/-! ### The closed form -/

/-- R80's closed form on the two terms of the bytes. -/
def closedForm (t1 t2 : Byte) (logic cin : Bool) : AluOut :=
  let sum := t1.toNat + t2.toNat + (if cin then 0 else 1)
  let result := if logic then ~~~t1 ^^^ t2 else BitVec.ofNat 8 sum
  { result := result, flags := { carry := !decide (256 ≤ sum), equal := decide (result = 0xFF) } }

theorem toNat_append_nibbles (h l : BitVec 4) : (h ++ l : Byte).toNat = 16 * h.toNat + l.toNat := by
  rw [BitVec.toNat_append, Nat.shiftLeft_eq, Nat.mul_comm, ← Nat.two_pow_add_eq_or_of_lt l.isLt]

theorem append_eq_allOnes_iff (h l : BitVec 4) : (h ++ l : Byte) = 0xFF ↔ l = 0xF ∧ h = 0xF := by
  have := toNat_append_nibbles h l
  bv_omega

/-- The carry of the lower sum into the upper one makes the two 4-bit sums one 8-bit sum. -/
theorem ofNat_append_ofNat (hi lo : Nat) (hlo : lo < 32) :
    (BitVec.ofNat 4 (hi + if decide (lo < 16) then 0 else 1) ++ BitVec.ofNat 4 lo : Byte) =
      BitVec.ofNat 8 (16 * hi + lo) := by
  apply BitVec.eq_of_toNat_eq
  rw [toNat_append_nibbles]
  simp only [BitVec.toNat_ofNat, decide_eq_true_eq]
  split <;> omega

/-- One slice, of two terms already formed (R75 to R79). -/
def sliceOfTerms (t1 t2 : BitVec 4) (logic carryIn : Bool) : SliceOut :=
  let sum := t1.toNat + t2.toNat + (if carryIn then 0 else 1)
  let f := if logic then ~~~t1 ^^^ t2 else BitVec.ofNat 4 sum
  { f := f, carry := decide (sum < 16), equal := decide (f = 0xF) }

theorem slice_eq_sliceOfTerms (a b sel : BitVec 4) (logic carryIn : Bool) :
    slice a b sel logic carryIn =
      sliceOfTerms (firstTerm a b (sel.getLsbD 0) (sel.getLsbD 1)) (secondTerm a b (sel.getLsbD 2) (sel.getLsbD 3))
        logic carryIn := rfl

/-- Two slices, the upper one on the lower one's carry, answer the closed form on the bytes of their terms. -/
theorem sliceOfTerms_compose (t1h t1l t2h t2l : BitVec 4) (logic cin : Bool) :
    let lo := sliceOfTerms t1l t2l logic cin
    let hi := sliceOfTerms t1h t2h logic lo.carry
    ({ result := hi.f ++ lo.f, flags := { carry := hi.carry, equal := lo.equal && hi.equal } } : AluOut) =
      closedForm (t1h ++ t1l) (t2h ++ t2l) logic cin := by
  intro lo hi
  let k := if cin then 0 else 1
  let loSum := t1l.toNat + t2l.toNat + k
  have hlo : loSum < 32 := by
    have hk : k ≤ 1 := by cases cin <;> decide
    omega
  have hsum : (t1h ++ t1l : Byte).toNat + (t2h ++ t2l : Byte).toNat + k = 16 * (t1h.toNat + t2h.toNat) + loSum := by
    rw [toNat_append_nibbles, toNat_append_nibbles]
    omega
  have hresult : hi.f ++ lo.f = (closedForm (t1h ++ t1l) (t2h ++ t2l) logic cin).result := by
    cases logic with
    | true =>
      show (~~~t1h ^^^ t2h) ++ (~~~t1l ^^^ t2l) = ~~~(t1h ++ t1l) ^^^ (t2h ++ t2l)
      rw [BitVec.not_append, BitVec.xor_append]
    | false => exact (ofNat_append_ofNat _ _ hlo).trans (congrArg _ hsum.symm)
  have hcarry : hi.carry = (closedForm (t1h ++ t1l) (t2h ++ t2l) logic cin).flags.carry := by
    show decide (t1h.toNat + t2h.toNat + (if decide (loSum < 16) then 0 else 1) < 16) = !decide (256 ≤ _)
    rw [hsum, ← decide_not, decide_eq_decide]
    simp only [decide_eq_true_eq]
    split <;> omega
  have hequal : (lo.equal && hi.equal) = decide ((hi.f ++ lo.f : Byte) = 0xFF) := by
    simp only [append_eq_allOnes_iff, Bool.decide_and]
    rfl
  rw [hequal, hcarry, hresult]
  rfl

/-- The ALU is the closed form on its two terms (R80). -/
theorem aluUpdate_eq_closedForm (a b : Byte) (sel : BitVec 4) (logic cin : Bool) :
    aluUpdate .asArithmetic a b sel logic cin =
      closedForm (firstTerm a b (sel.getLsbD 0) (sel.getLsbD 1)) (secondTerm a b (sel.getLsbD 2) (sel.getLsbD 3))
        logic cin := by
  have ha : (a.extractLsb' 4 4 ++ a.extractLsb' 0 4 : Byte) = a := BitVec.extractLsb'_append_extractLsb'
  have hb : (b.extractLsb' 4 4 ++ b.extractLsb' 0 4 : Byte) = b := BitVec.extractLsb'_append_extractLsb'
  have hcompose := sliceOfTerms_compose
    (firstTerm (a.extractLsb' 4 4) (b.extractLsb' 4 4) (sel.getLsbD 0) (sel.getLsbD 1))
    (firstTerm (a.extractLsb' 0 4) (b.extractLsb' 0 4) (sel.getLsbD 0) (sel.getLsbD 1))
    (secondTerm (a.extractLsb' 4 4) (b.extractLsb' 4 4) (sel.getLsbD 2) (sel.getLsbD 3))
    (secondTerm (a.extractLsb' 0 4) (b.extractLsb' 0 4) (sel.getLsbD 2) (sel.getLsbD 3)) logic cin
  rw [← firstTerm_append, ← secondTerm_append, ha, hb] at hcompose
  simpa only [aluUpdate, slice_eq_sliceOfTerms] using hcompose

/-- Settles O9: the closed form is R80's, written out. -/
theorem slicesComposeToClosedForm : Obligations.SlicesComposeToClosedForm :=
  aluUpdate_eq_closedForm

/-! ### The function table -/

section
variable (a b : Byte)

theorem firstTerm_a : firstTerm a b false false = a := by simp [firstTerm]

theorem firstTerm_a_or_b : firstTerm a b true false = a ||| b := by simp [firstTerm]

theorem firstTerm_a_or_not_b : firstTerm a b false true = a ||| ~~~b := by simp [firstTerm]

theorem firstTerm_allOnes : firstTerm a b true true = 0xFF := by
  show (a ||| b ||| ~~~b : Byte) = BitVec.allOnes 8
  rw [BitVec.or_assoc, BitVec.or_not_self, BitVec.or_allOnes]

theorem secondTerm_zero : secondTerm a b false false = 0 := by simp [secondTerm]

theorem secondTerm_a_and_not_b : secondTerm a b true false = a &&& ~~~b := by simp [secondTerm]

theorem secondTerm_a_and_b : secondTerm a b false true = a &&& b := by simp [secondTerm]

theorem secondTerm_a : secondTerm a b true true = a := by
  show (a &&& ~~~b ||| a &&& b : Byte) = a
  rw [← BitVec.and_or_distrib_left, BitVec.or_comm, BitVec.or_not_self, BitVec.and_allOnes]

end

/-- In logic mode the selector is a truth table: its bits 3 and 2 are the answers where A's bit is 1, for B's bit 1 and 0,
and its bits 0 and 1, inverted, the answers where A's bit is 0. -/
def truthTable (sel : BitVec 4) (x y : Bool) : Bool :=
  if x then (if y then sel.getLsbD 3 else sel.getLsbD 2) else (if y then !sel.getLsbD 0 else !sel.getLsbD 1)

theorem truthTable_xor (x y : Bool) : truthTable 6 x y = (x ^^ y) := by cases x <;> cases y <;> rfl

theorem truthTable_xnor (x y : Bool) : truthTable 9 x y = !(x ^^ y) := by cases x <;> cases y <;> rfl

theorem truthTable_true (x y : Bool) : truthTable 12 x y = true := by cases x <;> cases y <;> rfl

theorem getLsbD_ite_zero {w : Nat} (x : BitVec w) (s : Bool) (i : Nat) :
    (if s then x else 0).getLsbD i = (s && x.getLsbD i) := by
  cases s <;> simp

theorem getLsbD_logic (a b : Byte) (sel : BitVec 4) {i : Nat} (hi : i < 8) :
    (~~~firstTerm a b (sel.getLsbD 0) (sel.getLsbD 1) ^^^ secondTerm a b (sel.getLsbD 2) (sel.getLsbD 3)).getLsbD i =
      truthTable sel (a.getLsbD i) (b.getLsbD i) := by
  simp only [firstTerm, secondTerm, truthTable, BitVec.getLsbD_xor, BitVec.getLsbD_not, BitVec.getLsbD_or,
    BitVec.getLsbD_and, getLsbD_ite_zero, hi, decide_true, Bool.true_and]
  cases a.getLsbD i <;> cases b.getLsbD i <;> simp

/-! ### Answers by the function table -/

/-- An ALU answer has the result, the carry and the equal flag of the closed form on its terms. -/
theorem aluAnswers_of_terms {a b t1 t2 result : Byte} {sel : BitVec 4} {logic cin : Bool}
    (h1 : firstTerm a b (sel.getLsbD 0) (sel.getLsbD 1) = t1) (h2 : secondTerm a b (sel.getLsbD 2) (sel.getLsbD 3) = t2)
    (hresult : (closedForm t1 t2 logic cin).result = result) :
    AluAnswers (aluUpdate .asArithmetic a b sel logic cin) result t1 t2 cin := by
  rw [aluUpdate_eq_closedForm, h1, h2, ← hresult]
  refine ⟨rfl, ?_, rfl⟩
  rw [closedForm, ← decide_not, decide_eq_decide]
  exact Nat.not_le

/-- A logic function, by its truth table. -/
theorem aluAnswers_logic {a b t1 t2 result : Byte} {sel : BitVec 4} {cin : Bool}
    (h1 : firstTerm a b (sel.getLsbD 0) (sel.getLsbD 1) = t1) (h2 : secondTerm a b (sel.getLsbD 2) (sel.getLsbD 3) = t2)
    (hbits : ∀ i < 8, result.getLsbD i = truthTable sel (a.getLsbD i) (b.getLsbD i)) :
    AluAnswers (aluUpdate .asArithmetic a b sel true cin) result t1 t2 cin := by
  refine aluAnswers_of_terms h1 h2 (BitVec.eq_of_getLsbD_eq fun i hi => ?_)
  rw [hbits i hi, ← getLsbD_logic a b sel hi, h1, h2]
  rfl

/-- An arithmetic function, by the sum of its terms and k. -/
theorem aluAnswers_arithmetic {a b t1 t2 result : Byte} {sel : BitVec 4} {cin : Bool}
    (h1 : firstTerm a b (sel.getLsbD 0) (sel.getLsbD 1) = t1) (h2 : secondTerm a b (sel.getLsbD 2) (sel.getLsbD 3) = t2)
    (hsum : t1 + t2 + (if cin then 0 else 1) = result) :
    AluAnswers (aluUpdate .asArithmetic a b sel false cin) result t1 t2 cin := by
  refine aluAnswers_of_terms h1 h2 (Eq.trans (BitVec.eq_of_toNat_eq ?_) hsum)
  cases cin <;> simp [closedForm, BitVec.toNat_add]

/-- Settles O11, each function by its truth table. -/
theorem logicFunctionsZeroToSeven : Obligations.LogicFunctionsZeroToSeven := by
  intro a b cin
  refine ⟨aluAnswers_logic (firstTerm_a a b) (secondTerm_zero a b) ?_,
    aluAnswers_logic (firstTerm_a_or_b a b) (secondTerm_zero a b) ?_,
    aluAnswers_logic (firstTerm_a_or_not_b a b) (secondTerm_zero a b) ?_,
    aluAnswers_logic (firstTerm_allOnes a b) (secondTerm_zero a b) ?_,
    aluAnswers_logic (firstTerm_a a b) (secondTerm_a_and_not_b a b) ?_,
    aluAnswers_logic (firstTerm_a_or_b a b) (secondTerm_a_and_not_b a b) ?_,
    aluAnswers_logic (firstTerm_a_or_not_b a b) (secondTerm_a_and_not_b a b) fun i hi => ?xor,
    aluAnswers_logic (firstTerm_allOnes a b) (secondTerm_a_and_not_b a b) ?_⟩
  case xor => rw [truthTable_xor, BitVec.getLsbD_xor]
  all_goals
    intro i hi
    simp [truthTable, hi]

/-- Settles O12, each function by its truth table. -/
theorem logicFunctionsEightToFifteen : Obligations.LogicFunctionsEightToFifteen := by
  intro a b cin
  refine ⟨aluAnswers_logic (firstTerm_a a b) (secondTerm_a_and_b a b) ?_,
    aluAnswers_logic (firstTerm_a_or_b a b) (secondTerm_a_and_b a b) fun i hi => ?xnor,
    aluAnswers_logic (firstTerm_a_or_not_b a b) (secondTerm_a_and_b a b) ?_,
    aluAnswers_logic (firstTerm_allOnes a b) (secondTerm_a_and_b a b) ?_,
    aluAnswers_logic (firstTerm_a a b) (secondTerm_a a b) fun i hi => ?allOnes,
    aluAnswers_logic (firstTerm_a_or_b a b) (secondTerm_a a b) ?_,
    aluAnswers_logic (firstTerm_a_or_not_b a b) (secondTerm_a a b) ?_,
    aluAnswers_logic (firstTerm_allOnes a b) (secondTerm_a a b) ?_⟩
  case xnor =>
    rw [truthTable_xnor]
    simp [hi]
  case allOnes =>
    rw [truthTable_true]
    exact BitVec.getLsbD_allOnes.trans (decide_eq_true hi)
  all_goals
    intro i hi
    simp [truthTable, hi]

/-! ### Sums of the terms -/

/-- Union and common bits of two bytes add up to the bytes' sum. -/
theorem toNat_or_add_toNat_and (x y : Byte) : (x ||| y).toNat + (x &&& y).toNat = x.toNat + y.toNat := by
  have hdisjoint : x &&& (y &&& ~~~x) = 0#8 := by ext i; cases h : x[i] <;> simp [h]
  have hdisjoint' : x &&& y &&& (y &&& ~~~x) = 0#8 := by ext i; cases h : x[i] <;> simp [h]
  have hunion : x ||| (y &&& ~~~x) = x ||| y := by ext i; cases h : x[i] <;> simp [h]
  have hsplit : x &&& y ||| y &&& ~~~x = y := by ext i; cases h : x[i] <;> simp [h]
  have hor := BitVec.toNat_add_of_and_eq_zero hdisjoint
  have hy := BitVec.toNat_add_of_and_eq_zero hdisjoint'
  rw [BitVec.add_eq_or_of_and_eq_zero _ _ hdisjoint, hunion] at hor
  rw [BitVec.add_eq_or_of_and_eq_zero _ _ hdisjoint', hsplit] at hy
  omega

theorem or_add_and (x y : Byte) : (x ||| y) + (x &&& y) = x + y := by
  apply BitVec.eq_of_toNat_eq
  rw [BitVec.toNat_add, toNat_or_add_toNat_and, BitVec.toNat_add]

/-- Adding the complement subtracts one too much. -/
theorem add_not_eq_sub (x y : Byte) : x + ~~~y = x - y - 1 := by
  rw [BitVec.not_eq_neg_add]
  bv_omega

theorem allOnes_add (x : Byte) : 0xFF + x = x - 1 := by
  bv_omega

/-- Settles O13, each function by the sum of its terms. -/
theorem arithmeticFunctionsZeroToSeven : Obligations.ArithmeticFunctionsZeroToSeven := by
  intro a b cin k
  refine ⟨aluAnswers_arithmetic (firstTerm_a a b) (secondTerm_zero a b) ?_,
    aluAnswers_arithmetic (firstTerm_a_or_b a b) (secondTerm_zero a b) ?_,
    aluAnswers_arithmetic (firstTerm_a_or_not_b a b) (secondTerm_zero a b) ?_,
    aluAnswers_arithmetic (firstTerm_allOnes a b) (secondTerm_zero a b) ?_,
    aluAnswers_arithmetic (firstTerm_a a b) (secondTerm_a_and_not_b a b) rfl,
    aluAnswers_arithmetic (firstTerm_a_or_b a b) (secondTerm_a_and_not_b a b) rfl,
    aluAnswers_arithmetic (firstTerm_a_or_not_b a b) (secondTerm_a_and_not_b a b) ?_,
    aluAnswers_arithmetic (firstTerm_allOnes a b) (secondTerm_a_and_not_b a b) ?_⟩
  case refine_5 => rw [or_add_and, add_not_eq_sub]
  case refine_6 => rw [allOnes_add]
  all_goals rw [add_zero]

/-- Settles O14, each function by the sum of its terms. -/
theorem arithmeticFunctionsEightToFifteen : Obligations.ArithmeticFunctionsEightToFifteen := by
  intro a b cin k
  exact ⟨aluAnswers_arithmetic (firstTerm_a a b) (secondTerm_a_and_b a b) rfl,
    aluAnswers_arithmetic (firstTerm_a_or_b a b) (secondTerm_a_and_b a b) (by rw [or_add_and]),
    aluAnswers_arithmetic (firstTerm_a_or_not_b a b) (secondTerm_a_and_b a b) rfl,
    aluAnswers_arithmetic (firstTerm_allOnes a b) (secondTerm_a_and_b a b) (by rw [allOnes_add]),
    aluAnswers_arithmetic (firstTerm_a a b) (secondTerm_a a b) rfl,
    aluAnswers_arithmetic (firstTerm_a_or_b a b) (secondTerm_a a b) rfl,
    aluAnswers_arithmetic (firstTerm_a_or_not_b a b) (secondTerm_a a b) rfl,
    aluAnswers_arithmetic (firstTerm_allOnes a b) (secondTerm_a a b) (by rw [allOnes_add])⟩

/-! ### What software uses -/

section
variable {out : AluOut} {result t1 t2 : Byte} {cin : Bool}

/-- The carry flag is active low: without a carry input, it is 0 where the terms' sum leaves the byte. -/
theorem carry_eq_false_iff (h : AluAnswers out result t1 t2 true) :
    out.flags.carry = false ↔ 256 ≤ t1.toNat + t2.toNat := by
  obtain ⟨-, hcarry, -⟩ := h
  rw [hcarry, decide_eq_false_iff_not, Nat.not_lt]
  rfl

/-- With a carry input, which is 0, it is 0 where the terms' sum and 1 leave the byte. -/
theorem carry_eq_false_iff_of_carryIn (h : AluAnswers out result t1 t2 false) :
    out.flags.carry = false ↔ 255 ≤ t1.toNat + t2.toNat := by
  obtain ⟨-, hcarry, -⟩ := h
  rw [hcarry, decide_eq_false_iff_not, Nat.not_lt]
  exact Nat.succ_le_succ_iff

theorem equal_eq_true_iff (h : AluAnswers out result t1 t2 cin) : out.flags.equal = true ↔ result = 0xFF := by
  obtain ⟨-, -, hequal⟩ := h
  rw [hequal, decide_eq_true_iff]

end

/-- The terms of a subtraction add up to A and the complement of B. -/
theorem toNat_subtraction_terms (a b : Byte) :
    (a ||| ~~~b).toNat + (a &&& ~~~b).toNat = a.toNat + (255 - b.toNat) := by
  rw [toNat_or_add_toNat_and, BitVec.toNat_not]

theorem compare_facts (a b : Byte) :
    let r := aluUpdate .asArithmetic a b 6 false true
    r.result = a - b - 1 ∧ (r.flags.equal = true ↔ a = b) ∧ (r.flags.carry = false ↔ b.toNat < a.toNat) := by
  obtain ⟨-, -, -, -, -, -, h, -⟩ := arithmeticFunctionsZeroToSeven a b true
  have hresult : a - b - 1 + 0 = a - b - 1 := BitVec.add_zero _
  refine ⟨h.1.trans hresult, (equal_eq_true_iff h).trans ?_, ?_⟩
  · rw [if_pos rfl, hresult]
    bv_omega
  · rw [carry_eq_false_iff h, toNat_subtraction_terms]
    omega

theorem subtract_facts (a b : Byte) :
    let r := aluUpdate .asArithmetic a b 6 false false
    r.result = a - b ∧ (r.flags.carry = false ↔ b.toNat ≤ a.toNat) := by
  obtain ⟨-, -, -, -, -, -, h, -⟩ := arithmeticFunctionsZeroToSeven a b false
  refine ⟨h.1.trans (BitVec.sub_add_cancel _ _), ?_⟩
  rw [carry_eq_false_iff_of_carryIn h, toNat_subtraction_terms]
  omega

theorem add_facts (a b : Byte) :
    let r := aluUpdate .asArithmetic a b 9 false true
    r.result = a + b ∧ (r.flags.carry = false ↔ 256 ≤ a.toNat + b.toNat) := by
  obtain ⟨-, h, -⟩ := arithmeticFunctionsEightToFifteen a b true
  refine ⟨h.1.trans (BitVec.add_zero _), ?_⟩
  rw [carry_eq_false_iff h, toNat_or_add_toNat_and]

theorem decrement_facts (a b : Byte) :
    let r := aluUpdate .asArithmetic a b 15 false true
    r.result = a - 1 ∧ (r.flags.carry = true ↔ a = 0) := by
  obtain ⟨-, -, -, -, -, -, -, h⟩ := arithmeticFunctionsEightToFifteen a b true
  refine ⟨h.1.trans (BitVec.add_zero _), ?_⟩
  rw [← Bool.not_eq_false, carry_eq_false_iff h]
  bv_omega

theorem equality_without_carry (a b : Byte) (cin : Bool) :
    (aluUpdate .asArithmetic a b 9 true cin).flags.equal = true ↔ a = b := by
  obtain ⟨-, h, -⟩ := logicFunctionsEightToFifteen a b cin
  rw [equal_eq_true_iff h, BitVec.not_eq_comm]
  exact BitVec.xor_eq_zero_iff

/-- Settles O10: R82's six facts, from the function table's rows. -/
theorem aluIdiomsOfSoftware : Obligations.AluIdiomsOfSoftware := by
  intro a b
  obtain ⟨hincrement, -⟩ := arithmeticFunctionsZeroToSeven a b false
  exact ⟨compare_facts a b, subtract_facts a b, add_facts a b, hincrement.1, decrement_facts a b,
    equality_without_carry a b⟩

end Sys2Proof.Proofs
end

section
/-! The pseudo-instructions (45_reference_microcode.md R245): what `ALU d`, `ALUC d`, `CMP` and `MOV d, C` leave in a
register and the latched flags, with the functions their immediates select. -/

namespace Sys2Proof.Proofs

open Sys2Proof Sys2Proof.Machine Sys2Proof.Safety

/-! ### What the instructions leave -/

theorem exec_movInstr (o : BusOutput) (d : BusInput) (imm : Byte) (s : State) :
    exec (movInstr o d imm) s = move o d imm s := by
  cases o <;> cases d <;> rfl

theorem exec_aluInstr (d : BusInput) (imm : Byte) (s : State) : exec (aluInstr d imm) s = aluTo d imm s := by
  cases d <;> rfl

theorem exec_alucInstr (d : BusInput) (imm : Byte) (s : State) : exec (alucInstr d imm) s = alucTo d imm s := by
  cases d <;> rfl

/-- A register whose input is asserted takes the bus. -/
theorem readRegister_clock {layout : Layout} {cw : ControlWord} {d : BusInput} (hd : isRegisterInput d = true)
    (hon : asserted layout cw d.signal = true) (imm : Byte) (s : State) :
    readRegister d (clock layout cw imm s).cpu = stepBus layout cw imm s := by
  cases d
  case mi | pi => cases hd
  all_goals simp_all [readRegister, BusInput.signal]

/-- A register and the latched flags have an ALU answer, the one of the step that ends in the state. -/
def HoldsAnswer (d : BusInput) (out : AluOut) (t : State) : Prop :=
  readRegister d t.cpu = out.result ∧ t.cpu.flags = out.flags ∧ t.cpu.flags = t.cpu.aluFlags

/-- `FI` latches the step's ALU flags. -/
theorem flags_clock_of_fi {layout : Layout} {cw : ControlWord} (hfi : asserted layout cw .fi = true) (imm : Byte) (s : State) :
    (clock layout cw imm s).cpu.flags = (stepAlu s imm (!asserted layout cw .carryIn)).flags ∧
      (clock layout cw imm s).cpu.flags = (clock layout cw imm s).cpu.aluFlags := by
  rw [clock_cpu_flags, if_pos hfi, clock_cpu_aluFlags]
  exact ⟨rfl, rfl⟩

/-- With a register's input, `EO` and `FI`, a step leaves the ALU's answer in the register and the latched flags. -/
theorem retire_holdsAnswer {d : BusInput} {sigs : List Signal} {cin : Bool} (hd : isRegisterInput d = true)
    (hinput : sigs.contains d.signal = true) (hfi : sigs.contains .fi = true) (hcarry : sigs.contains .carryIn = !cin)
    (hwinner : winner Layout.reference (controlWord sigs) = some .eo) (imm : Byte) (s : State) :
    ∃ t, retire sigs imm s = .next t ∧ HoldsAnswer d (stepAlu s imm cin) t := by
  rw [← asserted_controlWord] at hinput hfi hcarry
  have hread := readRegister_clock hd hinput imm s
  have hflags := flags_clock_of_fi hfi imm s
  rw [stepBus_of_winner hwinner, if_pos rfl] at hread
  rw [hcarry, Bool.not_not] at hread hflags
  exact ⟨_, rfl, hread, hflags⟩

/-- `ALU d` (R214 to R226). -/
theorem exec_aluInstr_holdsAnswer {d : BusInput} (hd : isRegisterInput d = true) (imm : Byte) (s : State) :
    ∃ t, exec (aluInstr d imm) s = .next t ∧ HoldsAnswer d (stepAlu s imm true) t := by
  rw [exec_aluInstr]
  apply retire_holdsAnswer hd <;> cases d <;> rfl

/-- `ALUC d` (R215 to R227). -/
theorem exec_alucInstr_holdsAnswer {d : BusInput} (hd : isRegisterInput d = true) (imm : Byte) (s : State) :
    ∃ t, exec (alucInstr d imm) s = .next t ∧ HoldsAnswer d (stepAlu s imm false) t := by
  rw [exec_alucInstr]
  apply retire_holdsAnswer hd <;> cases d <;> rfl

/-- `CMP` latches the flags alone (R232). -/
theorem exec_cmp_latches (imm : Byte) (s : State) :
    ∃ t, exec (.cmp imm) s = .next t ∧ t.cpu.flags = (stepAlu s imm true).flags ∧ t.cpu.flags = t.cpu.aluFlags :=
  ⟨_, rfl, flags_clock_of_fi (layout := Layout.reference) (cw := controlWord [.fi]) rfl imm s⟩

/-- `LI d, imm` is `MOV d, C`. -/
theorem exec_li_loads {d : BusInput} (hd : isRegisterInput d = true) (imm : Byte) (s : State) :
    ∃ t, exec (Pseudo.li d imm).expand s = .next t ∧ readRegister d t.cpu = imm ∧ t.cpu.flags = s.cpu.flags := by
  have hinput : asserted Layout.reference (controlWord [.co, d.signal]) d.signal = true := by cases d <;> rfl
  have hfi : asserted Layout.reference (controlWord [.co, d.signal]) .fi = false := by cases d <;> rfl
  have hwinner : winner Layout.reference (controlWord [.co, d.signal]) = some .co := by cases d <;> rfl
  refine ⟨_, exec_movInstr .co d imm s, ?_, ?_⟩
  · exact (readRegister_clock hd hinput imm s).trans (stepBus_of_winner hwinner imm s)
  · exact (clock_cpu_flags ..).trans (if_neg (ne_true_of_eq_false hfi))

/-! ### The functions their immediates select -/

/-- The reading of the logic-mode carry reaches no result. -/
theorem stepAlu_result (s : State) (imm : Byte) (cin : Bool) :
    (stepAlu s imm cin).result = (aluOf .asArithmetic s.cpu.a s.cpu.b imm cin).result := rfl

/-- In arithmetic mode it reaches no flag either. -/
theorem stepAlu_of_arithmetic {imm : Byte} (h : imm.getLsbD 4 = false) (s : State) (cin : Bool) :
    stepAlu s imm cin = aluOf .asArithmetic s.cpu.a s.cpu.b imm cin := by
  rw [stepAlu, aluOf, aluOf, h]
  cases s.params.logicCarry <;> rfl

/-- An `ALU d` pseudo-instruction gives the function its immediate selects. -/
theorem exec_aluInstr_gives {d : BusInput} (hd : isRegisterInput d = true) {imm v : Byte} {s : State}
    (hv : (aluOf .asArithmetic s.cpu.a s.cpu.b imm true).result = v) :
    ∃ t, exec (aluInstr d imm) s = .next t ∧ readRegister d t.cpu = v ∧ t.cpu.flags = t.cpu.aluFlags := by
  obtain ⟨t, ht, hread, -, hflags⟩ := exec_aluInstr_holdsAnswer hd imm s
  exact ⟨t, ht, by rw [hread, stepAlu_result, hv], hflags⟩

/-- Settles O25, from the function table and what `ALU`, `ALUC`, `CMP` and `MOV d, C` latch. -/
theorem pseudoInstructionsHaveTheirEffects : Obligations.PseudoInstructionsHaveTheirEffects := by
  intro d s hd a b gives
  obtain ⟨⟨-, hequal, hless⟩, ⟨hsub, hborrow⟩, ⟨hadd, -⟩, hinc, ⟨hdec, hzero⟩, -⟩ := aluIdiomsOfSoftware a b
  obtain ⟨⟨hnot, -⟩, -, -, -, -, -, ⟨hxor, -⟩, -⟩ := logicFunctionsZeroToSeven a b true
  obtain ⟨-, -, -, ⟨hand, -⟩, -, -, ⟨hor, -⟩, -⟩ := logicFunctionsEightToFifteen a b true
  refine ⟨fun imm => exec_li_loads hd imm s, exec_aluInstr_gives hd hadd, ?inc, ?sub, ?dec, exec_aluInstr_gives hd hand,
    exec_aluInstr_gives hd hor, exec_aluInstr_gives hd hxor, exec_aluInstr_gives hd hnot, ?cmp⟩
  case inc =>
    obtain ⟨t, ht, hread, -, hflags⟩ := exec_alucInstr_holdsAnswer hd 0x00 s
    exact ⟨t, ht, hread.trans hinc, hflags⟩
  case sub =>
    obtain ⟨t, ht, hread, hanswer, hflags⟩ := exec_alucInstr_holdsAnswer hd 0x06 s
    refine ⟨t, ⟨ht, hread.trans hsub, hflags⟩, ?_⟩
    rw [hanswer, stepAlu_of_arithmetic rfl]
    exact hborrow
  case dec =>
    obtain ⟨t, ht, hread, hanswer, hflags⟩ := exec_aluInstr_holdsAnswer hd 0x0F s
    refine ⟨t, ⟨ht, hread.trans hdec, hflags⟩, ?_⟩
    rw [hanswer, stepAlu_of_arithmetic rfl]
    exact hzero
  case cmp =>
    obtain ⟨t, ht, hanswer, hflags⟩ := exec_cmp_latches 0x06 s
    refine ⟨t, ht, hflags, ?_, ?_⟩
    · rw [hanswer, stepAlu_of_arithmetic rfl]
      exact hequal
    · rw [hanswer, stepAlu_of_arithmetic rfl]
      exact hless

end Sys2Proof.Proofs
end

section
/-! The pipeline step (41_pipeline_step.md): every step has a next state, what a step adds to uptime, the pair increment, and
the step of an instruction that the decoder knows. -/

namespace Sys2Proof.Proofs

open Sys2Proof Sys2Proof.Machine Sys2Proof.Safety

/-! ### Every step has a next state -/

theorem loggedStep_next (s : State) : ∃ t, loggedStep s = .next t := by
  obtain ⟨u, hu⟩ := interpStep_next s
  exact ⟨_, by rw [loggedStep, hu, andThen_next]⟩

theorem ordinary_next (prev : ProcessorState) (s : State) : ∃ t, ordinary prev s = .next t := by
  obtain ⟨u, hu⟩ := loggedStep_next s
  exact ⟨_, by rw [ordinary, hu, andThen_next]⟩

/-- A replay returns whatever ends it, the step ceiling included (60_exceptions.md R362). -/
theorem replay_next (cancel : Nat → Bool) (tr : Trace) (s : State) : ∃ t, replay cancel tr s = .next t := by
  obtain ⟨r, hr⟩ := replayLoop_next cancel tr s.params.maxTraceSteps 0 (flush tr s)
  exact ⟨_, by rw [replay, execute, hr, andThen_next]⟩

/-- The machine's step in the case its state takes (44_tracing_vm.md R192). -/
theorem step_eq (s : State) : step s =
    match vmCase s with
    | .plain => loggedStep (beginVmStep s)
    | .finalize tr => .next { beginVmStep s with cache := cacheInsert s.cache tr, mode := .idle }
    | .replay tr => replay Config.cancelDraw tr (beginVmStep s)
    | .record => ordinary s.cpu { beginVmStep s with mode := .recording { instrs := [] } }
    | .ordinary => ordinary s.cpu (beginVmStep s) := rfl

theorem step_next (s : State) : ∃ t, step s = .next t := by
  rw [step_eq]
  cases vmCase s with
  | plain => exact loggedStep_next _
  | finalize tr => exact ⟨_, rfl⟩
  | replay tr => exact replay_next _ tr _
  | record => exact ordinary_next _ _
  | ordinary => exact ordinary_next _ _

/-- Settles O27: the interpreter's step runs some control word, and each case of the VM's step goes on from there. -/
theorem everyStepHasANextState : Obligations.EveryStepHasANextState :=
  ⟨interpStep_next, step_next⟩

/-! ### What the step of a control word changes -/

/-- The step of a control word changes the core, RAM, the events and the peripheral draws alone. -/
theorem clock_frame (layout : Layout) (cw : ControlWord) (imm : Byte) (s : State) :
    clock layout cw imm s =
      { s with
        cpu := (clock layout cw imm s).cpu, ram := (clock layout cw imm s).ram
        events := (clock layout cw imm s).events, periphDraws := (clock layout cw imm s).periphDraws } := by
  rw [clock_eq]

@[simp] theorem clock_cpu_uptime (layout : Layout) (cw : ControlWord) (imm : Byte) (s : State) :
    (clock layout cw imm s).cpu.uptime = s.cpu.uptime + 1 := by rw [clock_eq]

/-- Settles O28: an inert step is the tick alone, and the step of a control word ticks once. -/
theorem haltedStepChangesUptimeAlone : Obligations.HaltedStepChangesUptimeAlone := by
  intro s t h
  rcases interpStep_cases h with ⟨-, rfl⟩ | ⟨hs, cw, rfl⟩
  · exact ⟨rfl, fun _ => rfl⟩
  · exact ⟨clock_cpu_uptime .., fun hh => absurd hh (ne_true_of_eq_false hs)⟩

/-! ### The pair increment -/

theorem pairOf_pairInc (h l : Byte) : pairOf (pairInc h l).1 (pairInc h l).2 = pairOf h l + 1 := by
  rw [pairInc_eq, pairOf_bytes]

/-- The low byte wraps exactly from 0xFF. -/
theorem byte_add_one_eq_zero_iff (l : Byte) : l + 1 = 0 ↔ l = 0xFF := by bv_omega

/-- The high byte takes part where the low byte wraps, and only there. -/
theorem pairInc_high (h l : Byte) : (pairInc h l).1 = if l = 0xFF then h + 1 else h := by
  simp only [pairInc, byte_add_one_eq_zero_iff]

/-- Settles O34: the increment of two bytes, and the pairs after the step of any control word. -/
theorem pairIncrementIsSixteenBit : Obligations.PairIncrementIsSixteenBit := by
  refine ⟨pairOf_pairInc, fun h l => ⟨rfl, fun hl => ?_, fun hl => ?_⟩, fun layout cw imm s => ?_⟩
  · rw [pairInc_high, if_neg hl]
  · rw [pairInc_high, if_pos hl]
  · obtain ⟨hx, hy, hu, hv⟩ := clock_increments_pairs layout cw imm s
    refine ⟨fun hinc hxi hyi => ?_, fun hinc hui hvi => ?_⟩
    · rw [ProcessorState.xy, hx hinc hxi, hy hinc hyi, pairOf_bytes]
    · rw [ProcessorState.uv, hu hinc hui, hv hinc hvi, pairOf_bytes]

/-! ### The step of a decoded instruction -/

/-- Under the reference microcode the instruction that the bytes in if_id decode to is the one that runs. -/
theorem runIfId_of_decode {s : State} {i : Instr} (hm : s.params.microcode = .reference)
    (hi : decode (instrWord s.cpu.ifId.opcode s.cpu.ifId.immediate) = .ok i) : runIfId s = exec i s := by
  rw [decode_instrWord] at hi
  simp only [runIfId, hm, hi]

theorem loggedStep_of_runIfId {s : State} {o : StepOutcome} (hs : s.isHalted = false) (ho : runIfId s = o) :
    loggedStep s = andThen o fun t => .next (logSnapshot t) := by
  rw [loggedStep, interpStep_of_not_halted hs, ho]

theorem andThen_assoc {σ τ υ φ ρ : Type} (o : Host.Outcome σ φ ρ) (f : σ → Host.Outcome τ φ ρ)
    (g : τ → Host.Outcome υ φ ρ) : andThen (andThen o f) g = andThen o fun s => andThen (f s) g := by
  cases o <;> rfl

theorem ordinary_of_runIfId {s : State} {o : StepOutcome} (prev : ProcessorState) (hs : s.isHalted = false)
    (ho : runIfId s = o) : ordinary prev s = andThen o fun t => .next (afterOrdinary prev (logSnapshot t)) := by
  rw [ordinary, loggedStep_of_runIfId hs ho, andThen_assoc]
  simp only [andThen_next]

theorem interpStepFetching_of_not_halted {s : State} (hs : s.isHalted = false) (answer : Instruction) :
    interpStepFetching answer s = andThen (runIfId s) fun t => .next { t with cpu := { t.cpu with ifId := answer } } := by
  rw [interpStepFetching, if_neg (ne_true_of_eq_false hs)]

/-- Settles O26: what a case does before its interpreter step touches neither the core nor the parameters, so that the same
instruction runs. -/
theorem stepRunsTheDecodedInstruction : Obligations.StepRunsTheDecodedInstruction := by
  intro s i hm hs hi
  refine ⟨fun hcase => ?_, fun hcase => ?_, fun hcase => ?_, fun answer => ?_⟩
  · rw [step_eq, hcase]
    exact loggedStep_of_runIfId hs (runIfId_of_decode hm hi)
  · rw [step_eq, hcase]
    exact ordinary_of_runIfId s.cpu hs (runIfId_of_decode hm hi)
  · rw [step_eq, hcase]
    exact ordinary_of_runIfId s.cpu hs (runIfId_of_decode hm hi)
  · rw [interpStepFetching_of_not_halted hs, runIfId_of_decode hm hi]

end Sys2Proof.Proofs
end

section
/-! The moves (46_reference_moves.md): which signals the word of `MOV d, s` asserts, and the whole next state of its step, for
every source and every destination. -/

namespace Sys2Proof.Proofs

open Sys2Proof Sys2Proof.Machine Sys2Proof.Safety

/-! ### The word of a move -/

/-- The control word of `MOV d, s`: the output of the source and the input of the destination. -/
def moveWord (o : BusOutput) (d : BusInput) : ControlWord := controlWord [o.signal, d.signal]

theorem exec_movInstr_eq_clock (o : BusOutput) (d : BusInput) (imm : Byte) (s : State) :
    exec (movInstr o d imm) s = .next (clock Layout.reference (moveWord o d) imm s) := exec_movInstr o d imm s

theorem mem_outputOrder (o : BusOutput) : o ∈ outputOrder := by cases o <;> decide

/-- Of the signals that are no output, a move asserts its destination's alone. -/
theorem asserted_moveWord {sig : Signal} (hsig : ∀ o ∈ outputOrder, o.signal ≠ sig) (o : BusOutput) (d : BusInput) :
    asserted Layout.reference (moveWord o d) sig = decide (sig = d.signal) := by
  have ho : sig ≠ o.signal := (hsig o (mem_outputOrder o)).symm
  simp [moveWord, asserted_controlWord, ho]

/-- The source is the one output asserted. -/
theorem winner_moveWord (o : BusOutput) (d : BusInput) : winner Layout.reference (moveWord o d) = some o := by
  cases o <;> cases d <;> rfl

/-- The bus has the source's value. -/
theorem stepBus_moveWord (o : BusOutput) (d : BusInput) (imm : Byte) (s : State) :
    stepBus Layout.reference (moveWord o d) imm s = sourceValue s imm o := by
  have hcarry : asserted Layout.reference (moveWord o d) .carryIn = false := by
    rw [asserted_moveWord (by decide)]
    cases d <;> rfl
  rw [stepBus_of_winner (winner_moveWord o d), hcarry]
  cases o <;> rfl

/-! ### The step of a move, part by part -/

/-- The events a destination of a move adds: a store for M and for P, none for a register. -/
def destinationEvents (s : State) (v : Byte) : BusInput → List Event
  | .mi => [.memWrite s.cpu.uv v]
  | .pi => [.periphStore s.cpu.d s.cpu.uv v]
  | _ => []

section
variable (o : BusOutput) (d : BusInput) (imm : Byte) (s : State)

/-- The core has the effects of every step and the destination's new value. -/
theorem clock_moveWord_cpu : (clock Layout.reference (moveWord o d) imm s).cpu =
    writeRegister d (sourceValue s imm o) (common s imm (moveWord o d) true).cpu := by
  rw [clock_eq, stepBus_moveWord]
  simp (disch := decide) only [asserted_moveWord]
  cases d <;> rfl

/-- No move increments U:V. -/
theorem phase2Uv_moveWord : phase2Uv Layout.reference (moveWord o d) s.cpu = s.cpu.uv := by
  rw [phase2Uv, asserted_moveWord (by decide)]
  cases d <;> rfl

theorem clock_moveWord_ram : (clock Layout.reference (moveWord o d) imm s).ram =
    if d = .mi then writeByte s.ram s.cpu.uv (sourceValue s imm o) else s.ram := by
  rw [clock_ram, asserted_moveWord (by decide), phase2Uv_moveWord, stepBus_moveWord]
  cases d <;> rfl

/-- The fetch, the source's read and the destination's store, in this order (41_pipeline_step.md R117). -/
theorem clock_moveWord_events : (clock Layout.reference (moveWord o d) imm s).events =
    s.events ++ [.fetch s.cpu.pcIf] ++ sourceEvents s imm o ++ destinationEvents s (sourceValue s imm o) d := by
  have hsource : busEvents Layout.reference (moveWord o d) s (sourceValue s imm o) = sourceEvents s imm o := by
    rw [busEvents, winner_moveWord]
    cases o <;> rfl
  rw [clock_events, phase2Uv_moveWord, stepBus_moveWord, hsource]
  simp (disch := decide) only [asserted_moveWord]
  cases d <;> simp [BusInput.signal, destinationEvents]

theorem clock_moveWord_periphDraws : (clock Layout.reference (moveWord o d) imm s).periphDraws =
    s.periphDraws + sourceDraws s o := by
  rw [clock_eq, winner_moveWord]
  simp only [sourceDraws, Option.some.injEq]

end

/-! ### The registers as destinations -/

theorem ne_mi_of_register {d : BusInput} (hd : isRegisterInput d = true) : d ≠ .mi := by
  rintro rfl
  cases hd

theorem destinationEvents_of_register {d : BusInput} (hd : isRegisterInput d = true) (s : State) (v : Byte) :
    destinationEvents s v d = [] := by
  cases d
  case mi | pi => cases hd
  all_goals rfl

/-- The whole next state of a move to a register. -/
theorem exec_movInstr_register {d : BusInput} (hd : isRegisterInput d = true) (o : BusOutput) (imm : Byte) (s : State) :
    exec (movInstr o d imm) s =
      .next { common s imm (moveWord o d) true with
        cpu := writeRegister d (sourceValue s imm o) (common s imm (moveWord o d) true).cpu
        events := (common s imm (moveWord o d) true).events ++ sourceEvents s imm o
        periphDraws := s.periphDraws + sourceDraws s o } := by
  rw [exec_movInstr_eq_clock, clock_frame, clock_moveWord_cpu, clock_moveWord_ram, clock_moveWord_events,
    clock_moveWord_periphDraws, if_neg (ne_mi_of_register hd), destinationEvents_of_register hd, List.append_nil]
  rfl

/-- Settles O15: a move to a register neither stores to RAM nor to a peripheral. -/
theorem movToRegisterCompletes : Obligations.MovToRegisterCompletes := by
  intro o d imm s hd c
  have hexec := exec_movInstr_register hd o imm s
  refine ⟨hexec, fun t ht x => ?_⟩
  rw [hexec] at ht
  cases ht
  rfl

end Sys2Proof.Proofs
end

section
/-! Control flow (42_control_flow.md): the step of a word that asserts no signal but `HLT`, `J`, `CarryIn`, `FI` and `LinkIn`,
which is what the jumps, the links, the compares, `NOP` and `HLT` are made of; and the link value. -/

namespace Sys2Proof.Proofs

open Sys2Proof Sys2Proof.Machine Sys2Proof.Safety

/-! ### The link value -/

/-- `LinkIn` latches the link value of pc as the step leaves it and of the old pc, which phase 1 has moved to pc_if
(42_control_flow.md R164). -/
theorem clock_gh_of_linkIn {layout : Layout} {cw : ControlWord} (hlink : asserted layout cw .linkIn = true) (imm : Byte)
    (s : State) : (clock layout cw imm s).cpu.gh =
      linkValue s.params.rev (if asserted layout cw .j then s.cpu.xy else s.cpu.pc + 1) s.cpu.pc := by
  obtain ⟨-, -, -, -, -, -, -, hgh⟩ := clock_latches_bus layout cw imm s
  rw [hgh hlink, clock_cpu_pc, clock_cpu_pcIf]

/-- Settles O33: in the steady state pc is two past the instruction, so that the two revisions see the target or `a + 3`, and
`a + 2`. -/
theorem linkValueInTheSteadyState : Obligations.LinkValueInTheSteadyState := by
  intro layout cw imm s ⟨_, hpc⟩ hlink t a
  have hgh : t.cpu.gh = linkValue s.params.rev (if asserted layout cw .j then s.cpu.xy else a + 2 + 1) (a + 2) := by
    rw [clock_gh_of_linkIn hlink, hpc]
  have hnext : a + 2 + 1 = a + 3 := BitVec.add_assoc a 2 1
  refine ⟨fun hj => ?_, fun hj => ?_⟩
  · rw [hgh, hj, hnext]
    cases s.params.rev <;> rfl
  · rw [hgh, hj]
    cases s.params.rev <;> rfl

/-! ### The step of the control signals -/

/-- The signals that neither drive nor take the bus and increment no pair: they act on pc, the link registers, the latched
flags, the ALU's carry input and the halt alone. -/
def controlSignals : List Signal := [.hlt, .j, .carryIn, .fi, .linkIn]

/-- What a set of control signals makes of a state: the effects of every step, and those of `J`, `FI` and `LinkIn` where the
set has them. -/
def controlStep (sigs : List Signal) (imm : Byte) (s : State) : State :=
  let c := common s imm (controlWord sigs) (!sigs.contains .carryIn)
  let pc := if sigs.contains .j then s.cpu.xy else s.cpu.pc + 1
  let link := linkValue s.params.rev pc s.cpu.pc
  { c with
    cpu := { c.cpu with
      pc := pc
      g := if sigs.contains .linkIn then highByte link else s.cpu.g
      h := if sigs.contains .linkIn then lowByte link else s.cpu.h
      flags := if sigs.contains .fi then c.cpu.aluFlags else s.cpu.flags }
    events := if sigs.contains .j then c.events ++ [.willJump s.cpu.xy] else c.events }

/-- A set of control signals asserts no other signal. -/
theorem asserted_of_controlSignals {sigs : List Signal} (hsigs : sigs ⊆ controlSignals) {sig : Signal}
    (hsig : sig ∉ controlSignals) : asserted Layout.reference (controlWord sigs) sig = false := by
  rw [asserted_controlWord, List.contains_eq_mem, decide_eq_false (fun hmem => hsig (hsigs hmem))]

/-- With control signals alone the bus is not driven, and neither a register that takes it, a pair, RAM nor a peripheral
changes. -/
theorem retire_eq_controlStep {sigs : List Signal} (hsigs : sigs ⊆ controlSignals) (imm : Byte) (s : State) :
    retire sigs imm s = .next (controlStep sigs imm s) := by
  have hwinner : winner Layout.reference (controlWord sigs) = none :=
    winner_eq_none fun o => asserted_of_controlSignals hsigs (by cases o <;> decide)
  rw [retire, clock_eq, hwinner]
  simp (disch := decide) only [asserted_of_controlSignals hsigs]
  simp only [asserted_controlWord]
  by_cases hj : Signal.j ∈ sigs <;> simp [controlStep, common, hj]

/-- A set of control signals writes no byte of RAM. -/
theorem readByte_of_retire_controlSignals {sigs : List Signal} (hsigs : sigs ⊆ controlSignals) {imm : Byte} {s t : State}
    (h : retire sigs imm s = .next t) (x : Addr) : readByte t.ram x = readByte s.ram x := by
  rw [retire_eq_controlStep hsigs] at h
  cases h
  rfl

/-- The core is halted after a step exactly where its signals have `HLT` (42_control_flow.md R163). -/
theorem isHalted_common {s : State} (hm : s.params.microcode = .reference) (sigs : List Signal) (imm : Byte) (cin : Bool) :
    (common s imm (controlWord sigs) cin).isHalted = sigs.contains .hlt := by
  have hlayout : (common s imm (controlWord sigs) cin).layout = Layout.reference := congrArg Microcode.layout hm
  rw [State.isHalted, hlayout]
  exact asserted_controlWord sigs .hlt

/-! ### The instructions -/

/-- Settles O20: `FI`, with or without `CarryIn`, and no signal or `HLT` alone. -/
theorem comparesNopAndHltWriteNoRegister : Obligations.ComparesNopAndHltWriteNoRegister := by
  refine ⟨fun imm s => ⟨?cmp, ?cmpc, ?comparesKeepRam⟩, fun imm s => ⟨?nop, ?hlt, fun hm => ⟨?runs, ?halts⟩, ?keepRam⟩⟩
  case cmp => exact retire_eq_controlStep (sigs := [.fi]) (by decide) imm s
  case cmpc => exact retire_eq_controlStep (sigs := [.carryIn, .fi]) (by decide) imm s
  case nop => exact retire_eq_controlStep (sigs := []) (by decide) imm s
  case hlt => exact retire_eq_controlStep (sigs := [.hlt]) (by decide) imm s
  case runs => exact isHalted_common hm [] imm true
  case halts => exact isHalted_common hm [.hlt] imm true
  case comparesKeepRam =>
    rintro t (ht | ht)
    · exact readByte_of_retire_controlSignals (sigs := [.fi]) (by decide) ht
    · exact readByte_of_retire_controlSignals (sigs := [.carryIn, .fi]) (by decide) ht
  case keepRam =>
    rintro t (ht | ht)
    · exact readByte_of_retire_controlSignals (sigs := []) (by decide) ht
    · exact readByte_of_retire_controlSignals (sigs := [.hlt]) (by decide) ht

/-- Settles O22: `LinkIn`, and `J` with `LinkIn`, whose link value reads the pc that `J` has set. -/
theorem linkAndJalrLatchTheLinkValue : Obligations.LinkAndJalrLatchTheLinkValue := by
  refine fun imm s => ⟨?link, ?jalr, ?keepRam⟩
  case link => exact retire_eq_controlStep (sigs := [.linkIn]) (by decide) imm s
  case jalr => exact retire_eq_controlStep (sigs := [.j, .linkIn]) (by decide) imm s
  case keepRam =>
    rintro t (ht | ht)
    · exact readByte_of_retire_controlSignals (sigs := [.linkIn]) (by decide) ht
    · exact readByte_of_retire_controlSignals (sigs := [.j, .linkIn]) (by decide) ht

end Sys2Proof.Proofs
end

section
/-! The trace engine's parts (43_trace_engine.md): the profiler, the classes of control flow, the recorder, the writes of the
pipeline latches, and the executor's checks and loop. -/

namespace Sys2Proof.Proofs

open Sys2Proof Sys2Proof.Machine Sys2Proof.Safety

/-! ### The profiler -/

/-- Settles O45: a hit sets one count, and both answers compare a count with the threshold, which is 3. -/
theorem profilerCountsHits : Obligations.ProfilerCountsHits := by
  refine ⟨fun t p q => ⟨?_, fun hq => ?_, decide_eq_true_iff⟩, fun t p => decide_eq_true_iff, fun _ _ => rfl⟩
  · rw [profilerHit, hitCount_setHitCount, if_pos rfl]
  · rw [profilerHit, hitCount_setHitCount, if_neg hq]

/-! ### The classes of control flow -/

theorem flowClass_eq_unconditional_iff {m : Microcode} {opcode : Byte} :
    flowClass m opcode = .unconditional ↔ jumpCount m opcode = 4 := by
  unfold flowClass
  split
  · next h => simp [h]
  · next h => split <;> simp [h]

theorem flowClass_eq_conditional_iff {m : Microcode} {opcode : Byte} :
    flowClass m opcode = .conditional ↔ jumpCount m opcode ≠ 4 ∧ jumpCount m opcode ≠ 0 := by
  unfold flowClass
  split
  · next h => simp [h]
  · next h => split <;> simp [*]

/-- In the reference microcode `JMP` and `JALR` assert `J` in all four entries, each conditional jump in the two that meet its
condition, and no other opcode in any (45_reference_microcode.md R234 to R240). -/
theorem jumpCount_reference : ∀ opcode : Byte,
    jumpCount .reference opcode =
      if opcode = 0xD0 ∨ opcode = 0xD6 then 4 else if 0xD1 ≤ opcode.toNat ∧ opcode.toNat ≤ 0xD4 then 2 else 0 := by
  decide +kernel

/-- Settles O46, from how many of an opcode's entries assert `J`. -/
theorem flowClassesOfTheReferenceMicrocode : Obligations.FlowClassesOfTheReferenceMicrocode := by
  intro opcode
  rw [flowClass_eq_unconditional_iff, flowClass_eq_conditional_iff, jumpCount_reference]
  have hdisjoint : opcode = 0xD0 ∨ opcode = 0xD6 → ¬(0xD1 ≤ opcode.toNat ∧ opcode.toNat ≤ 0xD4) := by
    rintro (rfl | rfl) <;> decide
  split
  · next huncond => exact ⟨iff_of_true rfl huncond, iff_of_false (by decide) (hdisjoint huncond)⟩
  · next huncond =>
    split
    · next hcond => exact ⟨iff_of_false (by decide) huncond, iff_of_true (by decide) hcond⟩
    · next hcond => exact ⟨iff_of_false (by decide) huncond, iff_of_false (by decide) hcond⟩

/-! ### The recorder -/

/-- The guards of the three classes (43_trace_engine.md R177). -/
theorem recordedGuard_eq (m : Microcode) (opcode : Byte) (before : ProcessorState) :
    (flowClass m opcode = .unconditional → recordedGuard m opcode before = [.address before.xy]) ∧
    (flowClass m opcode = .conditional → recordedGuard m opcode before = [.address before.xy, .flags before.flags]) ∧
    (flowClass m opcode = .other → recordedGuard m opcode before = []) := by
  unfold recordedGuard
  refine ⟨fun h => ?_, fun h => ?_, fun h => ?_⟩ <;> rw [h]

/-- The first instruction recorded sets the anchor, and no later one changes it. -/
theorem anchor_record (m : Microcode) (r : Recorder) (ins : Instruction) (before : ProcessorState) :
    (r.record m ins before).anchor = if r.instrs = [] then some ins.pc else r.anchor := by
  obtain ⟨instrs⟩ := r
  cases instrs <;> rfl

/-- Settles O47: the guards are those of the class, and the anchor is the first instruction's pc. -/
theorem recorderGuardsByClass : Obligations.RecorderGuardsByClass := by
  intro m r ins before
  obtain ⟨huncond, hcond, hother⟩ := recordedGuard_eq m ins.opcode before
  refine ⟨recordedGuard m ins.opcode before, huncond, hcond, hother, rfl, fun hempty => ?_, fun hne => ?_⟩
  · rw [anchor_record, if_pos hempty]
  · rw [anchor_record, if_neg hne]

/-! ### The writes of the pipeline latches -/

/-- In the steady state a resynchronisation writes pc and pc_if the values they have. -/
theorem resync_of_steady {s : State} (h : Steady s.cpu) :
    resync s.cpu.ifId.pc s = { s with cpu := { s.cpu with ifId := fetch s.params s.cpu.ifId.pc } } := by
  obtain ⟨hpcIf, hpc⟩ := h
  rw [resync, ← hpcIf, ← hpc]

/-- Settles O49, by what the three writes are, and by what the steady state has in the latches already. -/
theorem traceEngineWritesOnlyLatches : Obligations.TraceEngineWritesOnlyLatches := by
  refine ⟨fun t s => ⟨rfl, rfl, rfl⟩, fun e s => rfl, fun e s => ⟨rfl, rfl, rfl⟩, fun s hsteady hsame => ?_⟩
  rw [resync_of_steady hsteady]
  exact ⟨hsame, rfl⟩

/-! ### The executor's checks -/

/-- Which guard sets the live state fails: those with a Fail guard, with another X:Y, or with other latched flags. -/
theorem any_guardFails_iff (p : ProcessorState) (g : List GuardKind) :
    g.any (guardFails p) = true ↔
      GuardKind.fail ∈ g ∨ (∃ a, GuardKind.address a ∈ g ∧ a ≠ p.xy) ∨ (∃ f, GuardKind.flags f ∈ g ∧ f ≠ p.flags) := by
  rw [List.any_eq_true]
  constructor
  · rintro ⟨kind, hmem, hfails⟩
    cases kind with
    | fail => exact .inl hmem
    | address a => exact .inr (.inl ⟨a, hmem, of_decide_eq_true hfails⟩)
    | flags f => exact .inr (.inr ⟨f, hmem, of_decide_eq_true hfails⟩)
  · rintro (hmem | ⟨a, hmem, hne⟩ | ⟨f, hmem, hne⟩)
    · exact ⟨_, hmem, rfl⟩
    · exact ⟨_, hmem, decide_eq_true hne⟩
    · exact ⟨_, hmem, decide_eq_true hne⟩

/-- The executor bails where a breakpoint's poll finds the cancellation flag set, and where a guard fails. -/
theorem replayChecks_bails_iff (cancel : Nat → Bool) (s : State) :
    (replayChecks cancel s).2 = true ↔
      (s.cpu.ifId.isBreakpoint = true ∧ cancel s.cancelDraws = true) ∨ s.cpu.ifId.guard.any (guardFails s.cpu) = true := by
  rw [← Bool.and_eq_true, ← Bool.or_eq_true]
  rfl

/-- Settles O48: the failing guards kind by kind, and the one poll at a breakpoint. -/
theorem replayBailsExactlyOnAFailedCheck : Obligations.ReplayBailsExactlyOnAFailedCheck := by
  intro cancel s ins
  refine ⟨?_, fun hbreak => ?_, fun hbreak => ?_⟩
  · rw [replayChecks_bails_iff, any_guardFails_iff]
  · rw [replayChecks_state, show s.cpu.ifId.isBreakpoint = true from hbreak]
    rfl
  · rw [replayChecks_state, show s.cpu.ifId.isBreakpoint = false from hbreak]
    rfl

/-! ### The executor's loop -/

/-- The checks and a snapshot touch neither the core nor RAM. -/
@[simp] theorem replayChecks_cpu (cancel : Nat → Bool) (s : State) : (replayChecks cancel s).1.cpu = s.cpu := by
  rw [replayChecks_state]
@[simp] theorem replayChecks_ram (cancel : Nat → Bool) (s : State) : (replayChecks cancel s).1.ram = s.ram := by
  rw [replayChecks_state]
@[simp] theorem logSnapshot_cpu (s : State) : (logSnapshot s).cpu = s.cpu := by rw [logSnapshot_eq]
@[simp] theorem logSnapshot_ram (s : State) : (logSnapshot s).ram = s.ram := by rw [logSnapshot_eq]
@[simp] theorem logSnapshot_isHalted (s : State) : (logSnapshot s).isHalted = s.isHalted := by
  rw [logSnapshot_eq]
  rfl

/-- One replayed step: the checks pass, the step's fetch is answered by the trace, and the snapshot is taken
(43_trace_engine.md R188). -/
def ReplayTurn (cancel : Nat → Bool) (tr : Trace) (i : Nat) (s s' : State) : Prop :=
  (replayChecks cancel s).2 = false ∧
    ∃ u, interpStepFetching (replayFetch tr i (replayChecks cancel s).1.cpu.pcIf) (replayChecks cancel s).1 = .next u ∧
      s' = logSnapshot u

/-- What holds of the loop's three ends, and of a turn before what it holds of, holds of every replay. -/
theorem replayLoop_induction {cancel : Nat → Bool} {tr : Trace} {motive : Nat → Nat → State → Replay → Prop}
    (bails : ∀ fuel i s, (replayChecks cancel s).2 = true →
      motive fuel i s
        { state := bail (replayChecks cancel s).1.cpu.ifId.pc (replayChecks cancel s).1
          result := .bailed (replayChecks cancel s).1.cpu.ifId.pc, steps := i })
    (ceiling : ∀ i s, (replayChecks cancel s).2 = false →
      motive 0 i s { state := (replayChecks cancel s).1, result := .ceiling, steps := i })
    (halts : ∀ fuel i s s', ReplayTurn cancel tr i s s' → s'.isHalted = true →
      motive (fuel + 1) i s { state := s', result := .halted, steps := i + 1 })
    (goes : ∀ fuel i s s' r, ReplayTurn cancel tr i s s' → s'.isHalted = false → motive fuel (i + 1) s' r →
      motive (fuel + 1) i s r) :
    ∀ {fuel i : Nat} {s : State} {r : Replay}, replayLoop cancel tr fuel i s = .next r → motive fuel i s r := by
  intro fuel
  induction fuel with
  | zero =>
    intro i s r h
    rcases replayLoop_cases h with ⟨hbail, rfl⟩ | ⟨hpass, -, rfl⟩ | ⟨-, f, -, hf, -⟩
    · exact bails 0 i s hbail
    · exact ceiling i s hpass
    · omega
  | succ fuel ih =>
    intro i s r h
    rcases replayLoop_cases h with ⟨hbail, rfl⟩ | ⟨-, hf, -⟩ | ⟨hpass, f, u, hf, hu, hend⟩
    · exact bails (fuel + 1) i s hbail
    · omega
    · obtain rfl : fuel = f := by omega
      rcases hend with ⟨hhalted, rfl⟩ | ⟨hgoes, hrest⟩
      · exact halts fuel i s _ ⟨hpass, u, hu, rfl⟩ hhalted
      · exact goes fuel i s _ r ⟨hpass, u, hu, rfl⟩ hgoes (ih hrest)

/-- An instruction that passes the checks has no Fail guard. -/
theorem not_mem_fail_of_passes {cancel : Nat → Bool} {s : State} (h : (replayChecks cancel s).2 = false) :
    GuardKind.fail ∉ s.cpu.ifId.guard := by
  intro hfail
  have hbail := (replayChecks_bails_iff cancel s).mpr (.inr ((any_guardFails_iff _ _).mpr (.inl hfail)))
  rw [h] at hbail
  cases hbail

theorem uptime_of_interpStep {s t : State} (h : interpStep s = .next t) : t.cpu.uptime = s.cpu.uptime + 1 :=
  (haltedStepChangesUptimeAlone s t h).1

theorem uptime_of_interpStepFetching {answer : Instruction} {s t : State} (h : interpStepFetching answer s = .next t) :
    t.cpu.uptime = s.cpu.uptime + 1 := by
  rcases interpStepFetching_cases h with ⟨-, rfl⟩ | ⟨-, u, hu, rfl⟩
  · rfl
  · exact (uptime_of_interpStep hu :)

/-- A replayed step is counted by uptime, the checks and the snapshot are not. -/
theorem ReplayTurn.uptime {cancel : Nat → Bool} {tr : Trace} {i : Nat} {s s' : State} (h : ReplayTurn cancel tr i s s') :
    s'.cpu.uptime = s.cpu.uptime + 1 := by
  obtain ⟨-, u, hu, rfl⟩ := h
  rw [logSnapshot_cpu, uptime_of_interpStepFetching hu, replayChecks_cpu]

/-- A replayed step that does not halt leaves the trace's answer in if_id. -/
theorem ReplayTurn.ifId_of_goes {cancel : Nat → Bool} {tr : Trace} {i : Nat} {s s' : State}
    (h : ReplayTurn cancel tr i s s') (hgoes : s'.isHalted = false) : ∃ a, s'.cpu.ifId = replayFetch tr i a := by
  obtain ⟨-, u, hu, rfl⟩ := h
  rw [logSnapshot_isHalted] at hgoes
  rw [logSnapshot_cpu]
  rcases interpStepFetching_cases hu with ⟨hhalted, rfl⟩ | ⟨-, v, -, rfl⟩
  · have hkept : (inert (replayChecks cancel s).1).isHalted = (replayChecks cancel s).1.isHalted := rfl
    rw [hkept, hhalted] at hgoes
    cases hgoes
  · exact ⟨_, rfl⟩

/-- The last instruction of a trace is followed by the synthetic one, which always bails (43_trace_engine.md R185). -/
theorem mem_fail_replayFetch_last {tr : Trace} {i : Nat} (h : i + 1 = tr.instrs.length) (a : Addr) :
    GuardKind.fail ∈ (replayFetch tr i a).guard := by
  rcases replayFetch_cases tr i a with ⟨hlt, -⟩ | heq
  · omega
  · rw [heq]
    exact List.mem_singleton.mpr rfl

/-- The loop's count of steps before a turn is within the trace, and past its last instruction if_id always bails. -/
def WithinTrace (tr : Trace) (i : Nat) (s : State) : Prop :=
  i ≤ tr.instrs.length ∧ (i = tr.instrs.length → GuardKind.fail ∈ s.cpu.ifId.guard)

/-- A turn is taken before the trace's end. -/
theorem WithinTrace.lt_of_turn {cancel : Nat → Bool} {tr : Trace} {i : Nat} {s s' : State} (h : WithinTrace tr i s)
    (hturn : ReplayTurn cancel tr i s s') : i < tr.instrs.length := by
  obtain ⟨hle, hend⟩ := h
  obtain ⟨hpass, -⟩ := hturn
  exact lt_of_le_of_ne hle fun heq => not_mem_fail_of_passes hpass (hend heq)

theorem WithinTrace.after_turn {cancel : Nat → Bool} {tr : Trace} {i : Nat} {s s' : State} (h : WithinTrace tr i s)
    (hturn : ReplayTurn cancel tr i s s') (hgoes : s'.isHalted = false) : WithinTrace tr (i + 1) s' := by
  refine ⟨h.lt_of_turn hturn, fun hlast => ?_⟩
  obtain ⟨a, ha⟩ := hturn.ifId_of_goes hgoes
  rw [ha]
  exact mem_fail_replayFetch_last hlast a

/-- From within its trace the loop performs no step past the trace's end. -/
theorem steps_le_length_of_replayLoop {cancel : Nat → Bool} {tr : Trace} {fuel i : Nat} {s : State} {r : Replay}
    (h : replayLoop cancel tr fuel i s = .next r) : WithinTrace tr i s → r.steps ≤ tr.instrs.length :=
  replayLoop_induction (motive := fun _ i s r => WithinTrace tr i s → r.steps ≤ tr.instrs.length)
    (bails := fun _ _ _ _ ⟨hle, _⟩ => hle)
    (ceiling := fun _ _ _ ⟨hle, _⟩ => hle)
    (halts := fun _ _ _ _ hturn _ hwithin => hwithin.lt_of_turn hturn)
    (goes := fun _ _ _ _ _ hturn hgoes ih hwithin => ih (hwithin.after_turn hturn hgoes)) h

/-- The loop performs at most as many more steps as it has fuel. -/
theorem steps_le_fuel_of_replayLoop {cancel : Nat → Bool} {tr : Trace} {fuel i : Nat} {s : State} {r : Replay}
    (h : replayLoop cancel tr fuel i s = .next r) : r.steps ≤ i + fuel :=
  replayLoop_induction (motive := fun fuel i _ r => r.steps ≤ i + fuel)
    (bails := fun _ _ _ _ => Nat.le_add_right ..)
    (ceiling := fun _ _ _ => le_rfl)
    (halts := fun _ _ _ _ _ _ => by simp only; omega)
    (goes := fun _ _ _ _ _ _ _ ih => by omega) h

/-- Uptime grows with the loop's count of steps. -/
theorem uptime_of_replayLoop {cancel : Nat → Bool} {tr : Trace} {fuel i : Nat} {s : State} {r : Replay}
    (h : replayLoop cancel tr fuel i s = .next r) : r.state.cpu.uptime + i = s.cpu.uptime + r.steps :=
  replayLoop_induction (motive := fun _ i s r => r.state.cpu.uptime + i = s.cpu.uptime + r.steps)
    (bails := fun _ _ s _ => by rw [bail_cpu_uptime, replayChecks_cpu])
    (ceiling := fun _ s _ => by rw [replayChecks_cpu])
    (halts := fun _ _ _ _ hturn _ => by simp only [hturn.uptime]; omega)
    (goes := fun _ _ _ _ _ hturn _ ih => by rw [hturn.uptime] at ih; omega) h

/-- Settles O51: the loop starts within its trace, which is not empty, with the ceiling as its fuel. -/
theorem replayIsBoundedByItsTrace : Obligations.ReplayIsBoundedByItsTrace := by
  refine fun cancel tr s => ⟨replayLoop_next .., fun r h => ⟨?_, ?_, ?_⟩⟩
  · exact steps_le_length_of_replayLoop h ⟨Nat.zero_le _, nofun⟩
  · simpa using steps_le_fuel_of_replayLoop h
  · exact uptime_of_replayLoop h

end Sys2Proof.Proofs
end

section
/-! The invariant (43_trace_engine.md R169, R173, R174, R177; 44_tracing_vm.md R195, R199): every step of the machine keeps it,
and under it no step removes or changes a cached trace. -/

namespace Sys2Proof.Proofs

open Sys2Proof Sys2Proof.Machine Sys2Proof.Safety

/-! ### Recordings -/

/-- The guards a recorder makes are of a recorder's shape, whatever the class. -/
theorem recordedGuardOk_recordedGuard (m : Microcode) (opcode : Byte) (before : ProcessorState) :
    recordedGuardOk (recordedGuard m opcode before) = true := by
  unfold recordedGuard
  cases flowClass m opcode <;> rfl

theorem recordingOk_cons_iff {i : Instruction} {rest : List Instruction} :
    recordingOk (i :: rest) = true ↔ i.isBreakpoint = true ∧ recordedGuardOk i.guard = true ∧
      ∀ j ∈ rest, j.isBreakpoint = false ∧ recordedGuardOk j.guard = true := by
  simp [recordingOk, and_assoc]

/-- What is recorded after nothing, or after a well-formed recording, is a well-formed recording. -/
theorem recordingOk_record {r : Recorder} (h : r.instrs = [] ∨ recordingOk r.instrs = true) (m : Microcode)
    (ins : Instruction) (before : ProcessorState) : recordingOk (r.record m ins before).instrs = true := by
  have hguard := recordedGuardOk_recordedGuard m ins.opcode before
  obtain ⟨instrs⟩ := r
  cases instrs with
  | nil => exact recordingOk_cons_iff.mpr ⟨rfl, hguard, nofun⟩
  | cons i rest =>
    obtain ⟨hbreak, hfirst, hrest⟩ := recordingOk_cons_iff.mp (h.resolve_left nofun)
    refine recordingOk_cons_iff.mpr ⟨hbreak, hfirst, List.forall_mem_append.mpr ⟨hrest, ?_⟩⟩
    exact List.forall_mem_singleton.mpr ⟨rfl, hguard⟩

/-! ### The mode -/

theorem modeOk_recording_iff {r : Recorder} {c : TraceCache} :
    modeOk (.recording r) c = true ↔
      recordingOk r.instrs = true ∧ ∀ p, r.anchor = some p → cachedTrace c p = none := by
  obtain ⟨instrs⟩ := r
  cases instrs <;> simp [modeOk, Recorder.anchor]

/-- Recording goes on in a recording of the invariant, or starts with an instruction at whose pc no trace is cached. -/
theorem modeOk_record {r : Recorder} {c : TraceCache} {ins : Instruction}
    (h : modeOk (.recording r) c = true ∨ (r.instrs = [] ∧ cachedTrace c ins.pc = none)) (m : Microcode)
    (before : ProcessorState) : modeOk (.recording (r.record m ins before)) c = true := by
  rcases h with h | ⟨hempty, hfree⟩
  · obtain ⟨hok, hanchor⟩ := modeOk_recording_iff.mp h
    refine modeOk_recording_iff.mpr ⟨recordingOk_record (.inr hok) m ins before, ?_⟩
    have hne : r.instrs ≠ [] := by
      intro hempty
      rw [hempty] at hok
      cases hok
    rwa [anchor_record, if_neg hne]
  · refine modeOk_recording_iff.mpr ⟨recordingOk_record (.inl hempty) m ins before, ?_⟩
    rw [anchor_record, if_pos hempty]
    rintro p ⟨⟩
    exact hfree

/-! ### The cache -/

theorem cacheOk_iff {c : TraceCache} :
    cacheOk c = true ↔ risingFrom 0 c = true ∧ ∀ e ∈ c, e.1 = e.2.anchor.toNat ∧ recordingOk e.2.instrs = true := by
  simp [cacheOk]

/-- A well-formed trace is cached under its own anchor. -/
theorem cacheOk_cacheInsert {c : TraceCache} {tr : Trace} (hc : cacheOk c = true) (htr : recordingOk tr.instrs = true) :
    cacheOk (cacheInsert c tr) = true := by
  obtain ⟨hrising, hentries⟩ := cacheOk_iff.mp hc
  refine cacheOk_iff.mpr ⟨risingFrom_setKey _ _ _ hrising, fun e he => ?_⟩
  rcases mem_setKey.mp he with rfl | ⟨hmem, -⟩
  · exact ⟨rfl, htr⟩
  · exact hentries e hmem

/-- A recording closes to a well-formed trace, at whose anchor none is cached yet. -/
theorem inv_closes_recording {s : State} {tr : Trace} (h : Inv s) (hc : vmCase s = .finalize tr) :
    recordingOk tr.instrs = true ∧ cachedTrace s.cache tr.anchor = none := by
  obtain ⟨hrec, -⟩ := recording_of_vmCase_finalize hc
  have hmode := h.mode
  rw [hrec] at hmode
  obtain ⟨hok, hanchor⟩ := modeOk_recording_iff.mp hmode
  exact ⟨hok, hanchor tr.anchor rfl⟩

/-! ### RAM -/

theorem ram_wf_of_interpStep {s t : State} (h : interpStep s = .next t) (hs : Memory.wf s.ram = true) :
    Memory.wf t.ram = true := by
  rcases interpStep_cases h with ⟨-, rfl⟩ | ⟨-, cw, rfl⟩
  · exact hs
  · rw [clock_ram]
    split
    · exact Memory.wf_writeByte _ _ _ hs
    · exact hs

theorem ram_wf_of_interpStepFetching {answer : Instruction} {s t : State} (h : interpStepFetching answer s = .next t)
    (hs : Memory.wf s.ram = true) : Memory.wf t.ram = true := by
  rcases interpStepFetching_cases h with ⟨-, rfl⟩ | ⟨-, u, hu, rfl⟩
  · exact hs
  · exact (ram_wf_of_interpStep hu hs :)

theorem ReplayTurn.ram_wf {cancel : Nat → Bool} {tr : Trace} {i : Nat} {s s' : State} (h : ReplayTurn cancel tr i s s')
    (hs : Memory.wf s.ram = true) : Memory.wf s'.ram = true := by
  obtain ⟨-, u, hu, rfl⟩ := h
  rw [logSnapshot_ram]
  exact ram_wf_of_interpStepFetching hu (by rwa [replayChecks_ram])

/-- A replay writes RAM in its turns alone. -/
theorem ram_wf_of_execute {cancel : Nat → Bool} {tr : Trace} {s : State} {r : Replay}
    (h : execute cancel tr s = .next r) (hs : Memory.wf s.ram = true) : Memory.wf r.state.ram = true :=
  replayLoop_induction (motive := fun _ _ s r => Memory.wf s.ram = true → Memory.wf r.state.ram = true)
    (bails := fun _ _ _ _ hs => by rwa [bail_ram, replayChecks_ram])
    (ceiling := fun _ _ _ hs => by rwa [replayChecks_ram])
    (halts := fun _ _ _ _ hturn _ hs => hturn.ram_wf hs)
    (goes := fun _ _ _ _ _ hturn _ ih hs => ih (hturn.ram_wf hs)) h hs

/-! ### The step -/

theorem inv_beginVmStep {s : State} (h : Inv s) : Inv (beginVmStep s) :=
  ⟨h.ram, h.progUpper, h.progLower, h.hits, h.cache, h.mode⟩

theorem inv_idle {s : State} (h : Inv s) : Inv { s with mode := .idle } :=
  ⟨h.ram, h.progUpper, h.progLower, h.hits, h.cache, rfl⟩

/-- Where the parameters and the VM's bookkeeping stay, the invariant is RAM's canonical form. -/
theorem inv_of_sameVm {s t : State} (h : Inv s) (hvm : SameVm s t) (hram : Memory.wf t.ram = true) : Inv t := by
  obtain ⟨hmode, hcache, hhits, -, -, hparams, -⟩ := hvm
  exact ⟨hram, hparams ▸ h.progUpper, hparams ▸ h.progLower, hhits ▸ h.hits, hcache ▸ h.cache, hmode ▸ hcache ▸ h.mode⟩

theorem inv_of_loggedStep {s t : State} (h : Inv s) (hst : loggedStep s = .next t) : Inv t := by
  obtain ⟨u, hu, rfl⟩ := loggedStep_cases hst
  refine inv_of_sameVm h ((SameVm.ofInterpStep hu).trans (SameVm.ofLogSnapshot u)) ?_
  rw [logSnapshot_ram]
  exact ram_wf_of_interpStep hu h.ram

theorem inv_afterReplay {cancel : Nat → Bool} {tr : Trace} {s : State} {r : Replay} (h : Inv s)
    (hr : execute cancel tr s = .next r) : Inv (afterReplay r) := by
  obtain ⟨hram, hupper, hlower, hhits, hcache, hmode⟩ : Inv r.state :=
    inv_of_sameVm h (SameVm.ofExecute hr) (ram_wf_of_execute hr h.ram)
  obtain ⟨emode, ecache, ehits, -, eparams, eram, -⟩ := afterReplay_frame r
  exact ⟨by rwa [eram], by rwa [eparams], by rwa [eparams], by rwa [ehits], by rwa [ecache], by rwa [emode, ecache]⟩

/-- The bookkeeping after an ordinary step keeps the invariant where the recording that runs is one of the invariant, or has
just been started, at a pc that has no trace. -/
theorem inv_afterOrdinary {prev : ProcessorState} {s : State} (h : Inv { s with mode := .idle })
    (hmode : modeOk s.mode s.cache = true ∨
      (s.mode = .recording { instrs := [] } ∧ cachedTrace s.cache prev.ifId.pc = none)) :
    Inv (afterOrdinary prev s) := by
  rw [afterOrdinary_eq]
  refine ⟨h.ram, h.progUpper, h.progLower, ?hits, h.cache, ?mode⟩
  case hits =>
    simp only
    split
    · exact HitTable.wf_setHitCount _ _ _ h.hits
    · exact h.hits
  case mode =>
    simp only
    cases hm : s.mode with
    | idle => rfl
    | recording r =>
      rw [hm] at hmode
      refine modeOk_record (hmode.imp_right fun ⟨hstart, hfree⟩ => ?_) _ _
      cases hstart
      exact ⟨rfl, hfree⟩

theorem inv_of_ordinary {prev : ProcessorState} {s t : State} (hst : ordinary prev s = .next t)
    (h : Inv { s with mode := .idle })
    (hmode : modeOk s.mode s.cache = true ∨
      (s.mode = .recording { instrs := [] } ∧ cachedTrace s.cache prev.ifId.pc = none)) : Inv t := by
  obtain ⟨u, hu, rfl⟩ := ordinary_cases hst
  have hvm : SameVm s (logSnapshot u) := (SameVm.ofInterpStep hu).trans (SameVm.ofLogSnapshot u)
  refine inv_afterOrdinary ?_ (by rwa [hvm.mode, hvm.cache])
  refine inv_of_sameVm h ⟨rfl, hvm.cache, hvm.hits, hvm.hotCandidate, hvm.skipExec, hvm.params, hvm.lastError⟩ ?_
  simp only [logSnapshot_ram]
  exact ram_wf_of_interpStep hu h.ram

/-- Settles O42, case by case of the machine's step: a plain step and a replay write RAM alone of what the invariant is about,
finalizing caches the recording that closes, and the other two cases count a hit and record the retired instruction. -/
theorem everyStepKeepsTheInvariant : Obligations.EveryStepKeepsTheInvariant := by
  intro s t h hst
  have hbegin := inv_beginVmStep h
  have hidle := inv_idle hbegin
  rcases step_cases hst with ⟨-, hst⟩ | ⟨tr, hc, rfl⟩ | ⟨tr, r, -, hr, rfl⟩ | ⟨hc, hst⟩ | ⟨-, hst⟩
  · exact inv_of_loggedStep hbegin hst
  · obtain ⟨hok, -⟩ := inv_closes_recording h hc
    exact ⟨h.ram, h.progUpper, h.progLower, h.hits, cacheOk_cacheInsert h.cache hok, rfl⟩
  · exact inv_afterReplay hbegin hr
  · obtain ⟨-, hfree⟩ := idle_of_vmCase_record hc
    exact inv_of_ordinary hst hidle (.inr ⟨rfl, hfree⟩)
  · exact inv_of_ordinary hst hidle (.inl hbegin.mode)

/-! ### Cached traces -/

theorem loggedStep_cache {s t : State} (h : loggedStep s = .next t) : t.cache = s.cache := by
  obtain ⟨u, hu, rfl⟩ := loggedStep_cases h
  exact (SameVm.ofLogSnapshot u).cache.trans (SameVm.ofInterpStep hu).cache

theorem ordinary_cache {prev : ProcessorState} {s t : State} (h : ordinary prev s = .next t) : t.cache = s.cache := by
  obtain ⟨u, hu, rfl⟩ := ordinary_cases h
  rw [afterOrdinary_eq]
  exact (SameVm.ofLogSnapshot u).cache.trans (SameVm.ofInterpStep hu).cache

/-- A step changes the cache in the case that finalizes a recording, by inserting its trace, and in no other
(44_tracing_vm.md R195). -/
theorem step_cache_cases {s t : State} (h : step s = .next t) :
    t.cache = s.cache ∨ ∃ tr, vmCase s = .finalize tr ∧ t.cache = cacheInsert s.cache tr := by
  rcases step_cases h with ⟨-, h⟩ | ⟨tr, hc, rfl⟩ | ⟨tr, r, -, hr, rfl⟩ | ⟨-, h⟩ | ⟨-, h⟩
  · exact .inl ((loggedStep_cache h).trans (beginVmStep_cache s))
  · exact .inr ⟨tr, hc, rfl⟩
  · obtain ⟨-, hcache, -⟩ := afterReplay_frame r
    exact .inl (hcache.trans ((SameVm.ofExecute hr).cache.trans (beginVmStep_cache s)))
  · exact .inl ((ordinary_cache h).trans (beginVmStep_cache s))
  · exact .inl ((ordinary_cache h).trans (beginVmStep_cache s))

/-- Settles O44: the one trace a step inserts goes where the invariant says that none is cached. -/
theorem cachedTracesNeverChange : Obligations.CachedTracesNeverChange := by
  intro s t h hst p tr hp
  rcases step_cache_cases hst with hcache | ⟨closed, hc, hcache⟩
  · rw [hcache, hp]
  · obtain ⟨-, hfree⟩ := inv_closes_recording h hc
    have hne : p ≠ closed.anchor := by
      rintro rfl
      rw [hfree] at hp
      cases hp
    rw [hcache, cachedTrace_cacheInsert, if_neg hne, hp]

end Sys2Proof.Proofs
end

section
/-! The VM's step (44_tracing_vm.md R192 to R203): each of its cases as an equation over the interpreter's step, what a step
counts, records and logs, and the replay that makes no progress. -/

namespace Sys2Proof.Proofs

open Sys2Proof Sys2Proof.Machine Sys2Proof.Safety

/-! ### The cases as equations -/

/-- An interpreter step commutes with the start of a VM step and with setting the mode, neither of which it reads. -/
theorem interpStep_begun {s u : State} (m : VmMode) (h : interpStep s = .next u) :
    interpStep { beginVmStep s with mode := m } = .next { beginVmStep u with mode := m } := by
  have hbefore : withCoreOf { beginVmStep s with mode := m } s = { beginVmStep s with mode := m } := rfl
  have hafter : withCoreOf { beginVmStep s with mode := m } u = { beginVmStep u with mode := m } := by
    rw [interpStep_vm h]
    rfl
  rw [← hafter, ← interpStep_withCoreOf _ h, hbefore]

theorem interpStep_beginVmStep {s u : State} (h : interpStep s = .next u) :
    interpStep (beginVmStep s) = .next (beginVmStep u) := by
  have hmode : beginVmStep u = { beginVmStep u with mode := s.mode } := by rw [← (SameVm.ofInterpStep h).mode]; rfl
  rw [hmode]
  exact interpStep_begun s.mode h

theorem step_of_plain {s u : State} (hc : vmCase s = .plain) (hu : interpStep s = .next u) :
    step s = .next (logSnapshot (beginVmStep u)) := by
  rw [step_eq, hc]
  simp only [loggedStep, interpStep_beginVmStep hu, andThen_next]

theorem step_of_finalize {s : State} {tr : Trace} (hc : vmCase s = .finalize tr) :
    step s = .next { beginVmStep s with cache := cacheInsert s.cache tr, mode := .idle } := by
  rw [step_eq, hc]

theorem step_of_replay {s : State} {tr : Trace} {r : Replay} (hc : vmCase s = .replay tr)
    (hr : execute Config.cancelDraw tr (beginVmStep s) = .next r) : step s = .next (afterReplay r) := by
  rw [step_eq, hc]
  simp only [replay, hr, andThen_next]

theorem step_of_record {s u : State} (hc : vmCase s = .record) (hu : interpStep s = .next u) :
    step s = .next (afterOrdinary s.cpu (logSnapshot { beginVmStep u with mode := .recording { instrs := [] } })) := by
  rw [step_eq, hc]
  simp only [ordinary, loggedStep, interpStep_begun _ hu, andThen_next]

theorem step_of_ordinary {s u : State} (hc : vmCase s = .ordinary) (hu : interpStep s = .next u) :
    step s = .next (afterOrdinary s.cpu (logSnapshot (beginVmStep u))) := by
  rw [step_eq, hc]
  simp only [ordinary, loggedStep, interpStep_beginVmStep hu, andThen_next]

/-- A step that neither replays nor closes a recording is the interpreter's step with its snapshot, but for the mode, the hit
table and the hot candidate (44_tracing_vm.md R193, R194, R199, R200). -/
theorem step_of_interpreter_cases {s t : State} (h : step s = .next t) (hreplay : ∀ tr, vmCase s ≠ .replay tr)
    (hfinalize : ∀ tr, vmCase s ≠ .finalize tr) :
    ∃ u, interpStep s = .next u ∧
      t = { logSnapshot (beginVmStep u) with mode := t.mode, hits := t.hits, hotCandidate := t.hotCandidate } := by
  obtain ⟨u, hu⟩ := interpStep_next s
  refine ⟨u, hu, ?_⟩
  cases hc : vmCase s with
  | plain =>
    rw [step_of_plain hc hu] at h
    cases h
    rfl
  | finalize tr => exact absurd hc (hfinalize tr)
  | replay tr => exact absurd hc (hreplay tr)
  | record =>
    rw [step_of_record hc hu, afterOrdinary_eq, logSnapshot_eq] at h
    cases h
    rw [logSnapshot_eq]
  | ordinary =>
    rw [step_of_ordinary hc hu, afterOrdinary_eq] at h
    cases h
    rfl

/-! ### When each case is taken -/

/-- The Tracing cases are tried for a core that is not halted, under the strategy Tracing alone. -/
theorem vmCase_of_tracing {s : State} (hstrategy : s.params.strategy = .tracing) (hs : s.isHalted = false) :
    vmCase s = tracingCase s := by
  simp [vmCase, hstrategy, hs]

theorem tracing_of_vmCase_ne_plain {s : State} (h : vmCase s ≠ .plain) :
    s.params.strategy = .tracing ∧ s.isHalted = false := by
  have hs : s.isHalted = false := eq_false_of_ne_true fun hs => h (vmCase_of_halted hs)
  refine ⟨?_, hs⟩
  cases hstrategy : s.params.strategy with
  | interpreterOnly => exact absurd (by simp [vmCase, hstrategy]) h
  | tracing => rfl

/-- A recording whose anchor is about to retire closes, to the trace of its instructions. -/
theorem tracingCase_of_anchor {s : State} {i : Instruction} {rest : List Instruction}
    (hmode : s.mode = .recording { instrs := i :: rest }) (hpc : s.cpu.ifId.pc = i.pc) :
    tracingCase s = .finalize { head := i, tail := rest } := by
  simp [tracingCase, hmode, hpc, Recorder.anchor, Recorder.finalize]

/-- In Idle, where no trace is cached, the hot candidate decides. -/
theorem tracingCase_of_uncached {s : State} (hmode : s.mode = .idle) (hfree : cachedTrace s.cache s.cpu.ifId.pc = none) :
    tracingCase s = if s.hotCandidate = some s.cpu.ifId.pc then .record else .ordinary := by
  simp only [tracingCase, hmode, hfree]

theorem vmCase_eq_record_iff (s : State) : vmCase s = .record ↔
    s.params.strategy = .tracing ∧ s.isHalted = false ∧ s.mode = .idle ∧ cachedTrace s.cache s.cpu.ifId.pc = none ∧
    s.hotCandidate = some s.cpu.ifId.pc := by
  constructor
  · intro hc
    obtain ⟨hstrategy, hs⟩ := tracing_of_vmCase_ne_plain (s := s) (by rw [hc]; nofun)
    obtain ⟨hmode, hfree⟩ := idle_of_vmCase_record hc
    rw [vmCase_of_tracing hstrategy hs, tracingCase_of_uncached hmode hfree] at hc
    refine ⟨hstrategy, hs, hmode, hfree, ?_⟩
    by_contra hcold
    rw [if_neg hcold] at hc
    cases hc
  · rintro ⟨hstrategy, hs, hmode, hfree, hhot⟩
    rw [vmCase_of_tracing hstrategy hs, tracingCase_of_uncached hmode hfree, if_pos hhot]

/-! ### Halted cores, closing recordings, and reset -/

/-- Settles O29: the plain case of an inert interpreter step, which leaves the held control word. -/
theorem haltedVmStepIsInert : Obligations.HaltedVmStepIsInert := by
  intro s hs
  have hinert : interpStep s = .next (inert s) := by rw [interpStep, if_pos hs]
  have hstep : step s = .next (logSnapshot (inert (beginVmStep s))) := step_of_plain (vmCase_of_halted hs) hinert
  refine ⟨hstep, fun t ht => ?_⟩
  rw [hstep] at ht
  cases ht
  rw [logSnapshot_isHalted]
  exact hs

/-- Settles O43: reset's memories are canonical, its tables empty, and no recording runs. -/
theorem resetMeetsTheInvariant : Obligations.ResetMeetsTheInvariant := by
  obtain ⟨hram, hupper, hlower⟩ := Memory.wf_reset
  exact ⟨hram, hupper, hlower, rfl, rfl, rfl⟩

/-- Settles O53: the case that caches the trace at its anchor and touches nothing else but the mode. -/
theorem finalizingTakesNoInterpreterStep : Obligations.FinalizingTakesNoInterpreterStep := by
  intro s i rest hstrategy hs hmode hpc
  have hc : vmCase s = .finalize { head := i, tail := rest } := by
    rw [vmCase_of_tracing hstrategy hs, tracingCase_of_anchor hmode hpc]
  refine ⟨_, step_of_finalize hc, rfl, rfl, rfl, rfl, rfl, ?_, fun p hp => ?_⟩
  · exact (cachedTrace_cacheInsert ..).trans (if_pos rfl)
  · exact (cachedTrace_cacheInsert ..).trans (if_neg hp)

/-- Settles O56: a closing step leaves the core as it was, and the other cases take the interpreter's step, which polls no
cancellation flag. -/
theorem nonReplayStepsAreInterpreterSteps : Obligations.NonReplayStepsAreInterpreterSteps := by
  intro s t hreplay h
  refine ⟨fun ⟨tr, hc⟩ => ?_, fun hfinalize => ?_⟩
  · rw [step_of_finalize hc] at h
    cases h
    exact ⟨rfl, rfl, rfl, rfl, rfl⟩
  · obtain ⟨u, hu, ht⟩ := step_of_interpreter_cases h hreplay hfinalize
    have hpolls : u.cancelDraws = s.cancelDraws := by rw [interpStep_vm hu]
    rw [ht, logSnapshot_eq]
    exact ⟨u, hu, rfl, rfl, rfl, rfl, hpolls⟩

/-! ### The profiler and the recorder around a step -/

@[simp] theorem afterOrdinary_cpu (prev : ProcessorState) (v : State) : (afterOrdinary prev v).cpu = v.cpu := by
  rw [afterOrdinary_eq]
@[simp] theorem afterOrdinary_cache (prev : ProcessorState) (v : State) : (afterOrdinary prev v).cache = v.cache := by
  rw [afterOrdinary_eq]

theorem afterOrdinary_mode_of_idle {prev : ProcessorState} {v : State} (h : v.mode = .idle) :
    (afterOrdinary prev v).mode = .idle := by
  rw [afterOrdinary_eq]
  simp only [h]

theorem afterOrdinary_mode_of_recording {prev : ProcessorState} {v : State} {r : Recorder} (h : v.mode = .recording r) :
    (afterOrdinary prev v).mode = .recording (r.record v.params.microcode prev.ifId prev) := by
  rw [afterOrdinary_eq]
  simp only [h]

/-- What the bookkeeping of an ordinary step counts, where no hot candidate stands before it: one hit of the new pc on a
backward transition, which makes it the hot candidate at the count 3, and nothing on another (44_tracing_vm.md R201). -/
theorem afterOrdinary_counts (prev : ProcessorState) {v : State} (hv : v.hotCandidate = none) :
    let t := afterOrdinary prev v
    let new := t.cpu.ifId.pc
    (new.toNat < prev.ifId.pc.toNat →
      hitCount t.hits new = hitCount v.hits new + 1 ∧ (∀ q, q ≠ new → hitCount t.hits q = hitCount v.hits q) ∧
      t.hotCandidate = if hitCount v.hits new + 1 = 3 then some new else none) ∧
    (prev.ifId.pc.toNat ≤ new.toNat → t.hits = v.hits ∧ t.hotCandidate = none) := by
  intro t new
  simp only [new, t, afterOrdinary_eq, hv]
  refine ⟨fun hback => ?_, fun hforth => ?_⟩
  · have hlt : v.cpu.ifId.pc < prev.ifId.pc := hback
    simp only [hlt, if_true, true_and]
    refine ⟨?_, fun q hq => ?_, rfl⟩
    · rw [hitCount_setHitCount, if_pos rfl]
    · rw [hitCount_setHitCount, if_neg hq]
  · have hlt : ¬ v.cpu.ifId.pc < prev.ifId.pc := Nat.not_lt.mpr hforth
    simp only [hlt, if_false, false_and, and_self]

/-- A step of cases 4 and 5 ends with the bookkeeping of an ordinary step, from a state with the VM's tables as they were and
the mode the case sets. -/
theorem afterOrdinary_of_step {s t : State} (hc : vmCase s = .ordinary ∨ vmCase s = .record) (h : step s = .next t) :
    ∃ v m, t = afterOrdinary s.cpu v ∧ SameVm { beginVmStep s with mode := m } v ∧
      (vmCase s = .ordinary → m = s.mode) ∧ (vmCase s = .record → m = .recording { instrs := [] }) := by
  obtain ⟨s0, u, hu, rfl, hordinary, hrecord⟩ := step_ordinary_cases hc h
  have hvm : SameVm s0 (logSnapshot u) := (SameVm.ofInterpStep hu).trans (SameVm.ofLogSnapshot u)
  rcases hc with hc | hc
  · rw [hordinary hc] at hvm
    exact ⟨_, s.mode, rfl, hvm, fun _ => rfl, by rw [hc]; nofun⟩
  · rw [hrecord hc] at hvm
    exact ⟨_, _, rfl, hvm, by rw [hc]; nofun, fun _ => rfl⟩

/-- The other cases count no hit, set no hot candidate and start no recording: they take the interpreter's step, close a
recording, or replay. -/
theorem tables_of_step_without_bookkeeping {s t : State} (hordinary : vmCase s ≠ .ordinary) (hrecord : vmCase s ≠ .record)
    (h : step s = .next t) : t.hits = s.hits ∧ t.hotCandidate = none ∧ (t.mode = s.mode ∨ t.mode = .idle) := by
  rcases step_cases h with ⟨-, hlogged⟩ | ⟨tr, -, rfl⟩ | ⟨tr, r, -, hr, rfl⟩ | ⟨hc, -⟩ | ⟨hc, -⟩
  · obtain ⟨u, hu, rfl⟩ := loggedStep_cases hlogged
    have hvm := (SameVm.ofInterpStep hu).trans (SameVm.ofLogSnapshot u)
    exact ⟨hvm.hits, hvm.hotCandidate, .inl hvm.mode⟩
  · exact ⟨rfl, rfl, .inr rfl⟩
  · obtain ⟨hmode, -, hhits, hhot, -⟩ := afterReplay_frame r
    have hvm := SameVm.ofExecute hr
    exact ⟨hhits.trans hvm.hits, hhot.trans hvm.hotCandidate, .inl (hmode.trans hvm.mode)⟩
  · exact absurd hc hrecord
  · exact absurd hc hordinary

/-- Settles O54: the bookkeeping of cases 4 and 5 counts and records, and no other case has any. -/
theorem ordinaryStepsFeedProfilerAndRecorder : Obligations.OrdinaryStepsFeedProfilerAndRecorder := by
  refine ⟨fun s t hc h => ?counts, vmCase_eq_record_iff, fun s t hc h => ?starts, fun s t hc h => ?records,
    fun s t => tables_of_step_without_bookkeeping⟩
  case counts =>
    obtain ⟨v, m, rfl, hvm, -⟩ := afterOrdinary_of_step hc h
    have hhits : v.hits = s.hits := hvm.hits
    obtain ⟨hback, hforth⟩ := afterOrdinary_counts s.cpu hvm.hotCandidate
    rw [hhits] at hback hforth
    exact ⟨hback, hforth, (afterOrdinary_cache s.cpu v).trans hvm.cache⟩
  case starts =>
    obtain ⟨v, m, rfl, hvm, -, hm⟩ := afterOrdinary_of_step (.inr hc) h
    have hparams : v.params = s.params := hvm.params
    have hmode := afterOrdinary_mode_of_recording (prev := s.cpu) (hvm.mode.trans (hm hc))
    rw [hparams] at hmode
    exact ⟨_, hmode, anchor_record .., rfl⟩
  case records =>
    obtain ⟨v, m, rfl, hvm, hm, -⟩ := afterOrdinary_of_step (.inl hc) h
    have hparams : v.params = s.params := hvm.params
    have hkept : v.mode = s.mode := hvm.mode.trans (hm hc)
    refine ⟨fun hidle => afterOrdinary_mode_of_idle (hkept.trans hidle), fun r hr => ?_⟩
    rw [afterOrdinary_mode_of_recording (hkept.trans hr), hparams]
end Sys2Proof.Proofs
end

section
/-! The replay inside a VM step (44_tracing_vm.md R196, R198, R203): what the VM does after the executor's return, the snapshots
of the replayed steps, and the replay that makes no step. -/

namespace Sys2Proof.Proofs

open Sys2Proof Sys2Proof.Machine Sys2Proof.Safety

/-! ### After the executor's return -/

/-- What the VM does after a replay: it marks a bail that made no step, or it replaces the last snapshot, after a bail that made
one or a halt; or it leaves the core and the log, after a halt or at the ceiling (44_tracing_vm.md R196). -/
theorem afterReplay_cases (r : Replay) :
    (∃ e, r.result = .bailed e ∧ r.steps = 0 ∧ afterReplay r = { resync e r.state with skipExec := true }) ∨
    (∃ cpu, (r.result = .halted ∨ r.steps ≠ 0) ∧ afterReplay r = relogSnapshot { r.state with cpu := cpu }) ∨
    (∃ error, (∀ e, r.result ≠ .bailed e) ∧ afterReplay r = { r.state with lastError := error }) := by
  unfold afterReplay
  cases r.result with
  | bailed e =>
    by_cases hsteps : r.steps = 0
    · exact .inl ⟨e, rfl, hsteps, if_pos hsteps⟩
    · exact .inr (.inl ⟨_, .inr hsteps, if_neg hsteps⟩)
  | halted =>
    simp only
    split
    · exact .inr (.inl ⟨_, .inl trivial, rfl⟩)
    · exact .inr (.inr ⟨r.state.lastError, nofun, rfl⟩)
  | ceiling => exact .inr (.inr ⟨_, nofun, rfl⟩)

/-! ### The replay that makes no step -/

/-- Only a bail that made no step sets `skipExec` after a replay. -/
theorem bailed_of_skipExec_afterReplay {r : Replay} (hr : r.state.skipExec = false) (h : (afterReplay r).skipExec = true) :
    r.steps = 0 ∧ ∃ e, afterReplay r = { resync e r.state with skipExec := true } := by
  rcases afterReplay_cases r with ⟨e, -, hsteps, heq⟩ | ⟨cpu, -, heq⟩ | ⟨error, -, heq⟩
  · exact ⟨hsteps, e, heq⟩
  · rw [heq, relogSnapshot_eq] at h
    simp [hr] at h
  · rw [heq] at h
    simp [hr] at h

@[simp] theorem replayChecks_params (cancel : Nat → Bool) (s : State) : (replayChecks cancel s).1.params = s.params := by
  rw [replayChecks_state]
@[simp] theorem replayChecks_log (cancel : Nat → Bool) (s : State) : (replayChecks cancel s).1.log = s.log := by
  rw [replayChecks_state]

/-- A replay whose first checks fail bails at its trace's anchor before any step. -/
theorem execute_of_failed_checks {cancel : Nat → Bool} {tr : Trace} {s : State}
    (h : (replayChecks cancel (flush tr s)).2 = true) :
    execute cancel tr s = .next
      { state := bail tr.anchor (replayChecks cancel (flush tr s)).1, result := .bailed tr.anchor, steps := 0 } := by
  have hpc : (replayChecks cancel (flush tr s)).1.cpu.ifId.pc = tr.anchor := by rw [replayChecks_cpu]; rfl
  rw [execute, replayLoop.eq_def, ← hpc]
  exact if_pos h

/-- A step that does not replay leaves `skipExec` cleared. -/
theorem skipExec_of_step_without_replay {s t : State} (h : step s = .next t) (hreplay : ∀ tr, vmCase s ≠ .replay tr) :
    t.skipExec = false := by
  by_cases hfinalize : ∃ tr, vmCase s = .finalize tr
  · obtain ⟨tr, hc⟩ := hfinalize
    rw [step_of_finalize hc] at h
    cases h
    rfl
  · obtain ⟨u, -, ht⟩ := step_of_interpreter_cases h hreplay (not_exists.mp hfinalize)
    rw [ht, logSnapshot_eq]
    rfl

/-- A replaying step that sets `skipExec` has performed no interpreter step. -/
theorem uptime_of_skipExec {s t : State} {tr : Trace} (hc : vmCase s = .replay tr) (h : step s = .next t)
    (hskip : t.skipExec = true) : t.cpu.uptime = s.cpu.uptime := by
  obtain ⟨r, hr⟩ : ∃ r, execute Config.cancelDraw tr (beginVmStep s) = .next r := replayLoop_next ..
  rw [step_of_replay hc hr] at h
  cases h
  obtain ⟨hsteps, e, heq⟩ := bailed_of_skipExec_afterReplay (SameVm.ofExecute hr).skipExec hskip
  have huptime := uptime_of_replayLoop hr
  rw [hsteps] at huptime
  rw [heq]
  exact huptime

/-- Settles O57: a bail that made no step sets `skipExec`, every other end and every other case leaves it cleared, and with it
standing no replay is chosen. -/
theorem replayIsNotRepeatedWithoutProgress : Obligations.ReplayIsNotRepeatedWithoutProgress := by
  refine ⟨fun s tr r e hc hr hbailed hsteps => ?sets, fun s tr hc hfails => ?first, fun s t h hskip => ?only,
    fun s tr hskip hc => ?next⟩
  case sets =>
    refine ⟨_, step_of_replay hc hr, ?_⟩
    simp only [afterReplay, hbailed, if_pos hsteps]
  case first =>
    refine ⟨_, step_of_replay hc (execute_of_failed_checks hfails), rfl, ?_⟩
    simp only [afterReplay, if_true, resync_cpu_ifId, bail_params, replayChecks_params, flush_params, beginVmStep_params]
  case only =>
    by_cases hreplay : ∃ tr, vmCase s = .replay tr
    · obtain ⟨tr, hc⟩ := hreplay
      exact ⟨⟨tr, hc⟩, uptime_of_skipExec hc h hskip⟩
    · rw [skipExec_of_step_without_replay h (not_exists.mp hreplay)] at hskip
      cases hskip
  case next =>
    obtain ⟨-, -, -, -, hclear⟩ := cached_of_vmCase_replay hc
    rw [hskip] at hclear
    cases hclear

/-! ### The replayed steps and their snapshots -/

/-- A step whose fetch is answered neither reads nor writes the VM's bookkeeping. -/
theorem interpStepFetching_withCoreOf (v : State) {answer : Instruction} {w w' : State}
    (h : interpStepFetching answer w = .next w') :
    interpStepFetching answer (withCoreOf v w) = .next (withCoreOf v w') := by
  have hhalted : (withCoreOf v w).isHalted = w.isHalted := rfl
  rcases interpStepFetching_cases h with ⟨hs, rfl⟩ | ⟨hs, u, hu, rfl⟩
  · rw [interpStepFetching, if_pos (hhalted.trans hs)]
    rfl
  · have hstep := interpStep_withCoreOf v hu
    rw [interpStep_of_not_halted (hhalted.trans hs)] at hstep
    rw [interpStepFetching_of_not_halted (hhalted.trans hs), hstep]
    rfl

/-- The state `v` has the core, RAM, events and peripheral draws that `n` replayed steps from `s` leave. -/
def StandsAfter (tr : Trace) (s : State) (n : Nat) (v : State) : Prop :=
  ∃ w, replayRun tr n s = .next w ∧ withCoreOf v w = v

theorem StandsAfter.flush (tr : Trace) (s : State) : StandsAfter tr s 0 (Machine.flush tr (beginVmStep s)) :=
  ⟨_, rfl, rfl⟩

theorem StandsAfter.cpu_eq {tr : Trace} {s v w : State} {n : Nat} (h : StandsAfter tr s n v)
    (hw : replayRun tr n s = .next w) : v.cpu = w.cpu := by
  obtain ⟨w', hw', hcore⟩ := h
  obtain rfl : w' = w := by simpa [hw] using hw'.symm
  rw [← hcore]
  rfl

theorem StandsAfter.after_turn {cancel : Nat → Bool} {tr : Trace} {s v v' : State} {n : Nat} (h : StandsAfter tr s n v)
    (hturn : ReplayTurn cancel tr n v v') : StandsAfter tr s (n + 1) v' := by
  obtain ⟨w, hw, hcore⟩ := h
  obtain ⟨-, u, hu, rfl⟩ := hturn
  obtain ⟨w', hw'⟩ := interpStepFetching_next (replayFetch tr n w.cpu.pcIf) w
  refine ⟨w', by rw [replayRun, hw, andThen_next, hw'], ?_⟩
  have hchecked : (replayChecks cancel v).1 = withCoreOf (replayChecks cancel v).1 w := by
    rw [replayChecks_state, ← hcore]
    rfl
  rw [hchecked, show (withCoreOf (replayChecks cancel v).1 w).cpu = w.cpu from rfl,
    interpStepFetching_withCoreOf _ hw'] at hu
  cases hu
  rw [logSnapshot_eq]
  rfl

theorem log_of_interpStepFetching {answer : Instruction} {s t : State} (h : interpStepFetching answer s = .next t) :
    t.log = s.log := by
  rcases interpStepFetching_cases h with ⟨-, rfl⟩ | ⟨-, u, hu, rfl⟩
  · rfl
  · rw [interpStep_vm hu]

theorem ReplayTurn.params {cancel : Nat → Bool} {tr : Trace} {i : Nat} {s s' : State} (h : ReplayTurn cancel tr i s s') :
    s'.params = s.params := by
  obtain ⟨-, u, hu, rfl⟩ := h
  rw [(SameVm.ofLogSnapshot u).params, (SameVm.ofInterpStepFetching hu).params, replayChecks_params]

/-- A replayed step logs the state it left, where capture is on. -/
theorem ReplayTurn.log {cancel : Nat → Bool} {tr : Trace} {i : Nat} {s s' : State} (h : ReplayTurn cancel tr i s s') :
    s'.log = if s.params.capture then s.log ++ [s'.cpu] else s.log := by
  have hparams := h.params
  obtain ⟨-, u, hu, rfl⟩ := h
  rw [(SameVm.ofLogSnapshot u).params] at hparams
  rw [logSnapshot_eq, hparams, log_of_interpStepFetching hu, replayChecks_log]

/-! ### The log of a replay -/

/-- The log holds, after that of `s`, one snapshot for each of `n` replayed steps from `s`: the last one is `last`, and each
before it is of the state that its step left. -/
def LogsReplay (tr : Trace) (s : State) (n : Nat) (log : List ProcessorState) (last : ProcessorState) : Prop :=
  ∃ l : List ProcessorState, log = s.log ++ l ∧ l.length = n ∧ (l ≠ [] → l.getLast? = some last) ∧
    ∀ (k : Nat) (v : State), k + 1 < n → replayRun tr (k + 1) s = .next v → l[k]? = some v.cpu

theorem LogsReplay.start (tr : Trace) (s : State) (last : ProcessorState) : LogsReplay tr s 0 s.log last :=
  ⟨[], (List.append_nil _).symm, rfl, nofun, fun _ _ hk => absurd hk (Nat.not_lt_zero _)⟩

/-- Where no step was made there is no last snapshot. -/
theorem LogsReplay.of_no_step {tr : Trace} {s : State} {log : List ProcessorState} {last : ProcessorState}
    (h : LogsReplay tr s 0 log last) (last' : ProcessorState) : LogsReplay tr s 0 log last' := by
  obtain ⟨l, hlog, hlength, -, hsteps⟩ := h
  exact ⟨l, hlog, hlength, fun hne => absurd (List.eq_nil_of_length_eq_zero hlength) hne, hsteps⟩

/-- One more replayed step, where the last snapshot is of the state it starts from. -/
theorem LogsReplay.snoc {tr : Trace} {s : State} {n : Nat} {log : List ProcessorState} {last : ProcessorState}
    (h : LogsReplay tr s n log last) (hlast : ∀ w, replayRun tr n s = .next w → last = w.cpu) (cpu : ProcessorState) :
    LogsReplay tr s (n + 1) (log ++ [cpu]) cpu := by
  obtain ⟨l, rfl, rfl, hend, hsteps⟩ := h
  refine ⟨l ++ [cpu], List.append_assoc .., by simp, fun _ => by simp, fun k v hk hv => ?_⟩
  have hlt : k < l.length := by omega
  rw [List.getElem?_append_left hlt]
  rcases Nat.lt_or_eq_of_le (Nat.succ_le_of_lt hlt) with hbefore | hlatest
  · exact hsteps k v hbefore hv
  · have hidx : l.length - 1 = k := by omega
    rw [← hidx, ← List.getLast?_eq_getElem?, hend (List.length_pos_iff.mp (by omega)), hlast v (by rw [← hlatest, hv])]

/-- The last snapshot replaced. -/
theorem LogsReplay.relog {tr : Trace} {s : State} {n : Nat} {log : List ProcessorState} {last : ProcessorState}
    (h : LogsReplay tr s n log last) (hn : n ≠ 0) (cpu : ProcessorState) :
    LogsReplay tr s n (log.dropLast ++ [cpu]) cpu := by
  obtain ⟨l, rfl, rfl, -, hsteps⟩ := h
  have hne : l ≠ [] := fun hnil => hn (by rw [hnil, List.length_nil])
  refine ⟨l.dropLast ++ [cpu], ?_, ?_, fun _ => by simp, fun k v hk hv => ?_⟩
  · rw [List.dropLast_append_of_ne_nil hne, List.append_assoc]
  · simp only [List.length_append, List.length_dropLast, List.length_singleton]
    omega
  · have hlt : k < l.length - 1 := by omega
    rw [List.getElem?_append_left (by rwa [List.length_dropLast]), List.getElem?_dropLast, if_pos hlt, hsteps k v hk hv]

/-- With capture on, the loop logs one snapshot for each step, the last one of the state where it stops; a bail then writes
pc. -/
theorem logsReplay_of_replayLoop {cancel : Nat → Bool} {tr : Trace} {s : State} {fuel i : Nat} {v : State} {r : Replay}
    (h : replayLoop cancel tr fuel i v = .next r) : v.params.capture = true → StandsAfter tr s i v →
      LogsReplay tr s i v.log v.cpu →
      ∃ last, LogsReplay tr s r.steps r.state.log last ∧ ((∀ e, r.result ≠ .bailed e) → last = r.state.cpu) := by
  have turn : ∀ {i v v'}, ReplayTurn cancel tr i v v' → v.params.capture = true → StandsAfter tr s i v →
      LogsReplay tr s i v.log v.cpu → LogsReplay tr s (i + 1) v'.log v'.cpu := by
    intro i v v' hturn hcapture hstands hlogs
    rw [hturn.log, if_pos hcapture]
    exact hlogs.snoc (fun w => hstands.cpu_eq) v'.cpu
  exact replayLoop_induction (motive := fun _ i v r => v.params.capture = true → StandsAfter tr s i v →
      LogsReplay tr s i v.log v.cpu →
      ∃ last, LogsReplay tr s r.steps r.state.log last ∧ ((∀ e, r.result ≠ .bailed e) → last = r.state.cpu))
    (bails := fun _ _ v _ _ _ hlogs =>
      ⟨v.cpu, by rwa [bail_log, replayChecks_log], fun hpasses => absurd rfl (hpasses _)⟩)
    (ceiling := fun _ v _ _ _ hlogs =>
      ⟨v.cpu, by rwa [replayChecks_log], fun _ => (replayChecks_cpu cancel v).symm⟩)
    (halts := fun _ _ _ v' hturn _ hcapture hstands hlogs => ⟨v'.cpu, turn hturn hcapture hstands hlogs, fun _ => rfl⟩)
    (goes := fun _ _ _ _ _ hturn _ ih hcapture hstands hlogs =>
      ih (by rwa [hturn.params]) (hstands.after_turn hturn) (turn hturn hcapture hstands hlogs)) h

/-- With capture off, the loop logs nothing. -/
theorem log_of_replayLoop {cancel : Nat → Bool} {tr : Trace} {fuel i : Nat} {v : State} {r : Replay}
    (h : replayLoop cancel tr fuel i v = .next r) : v.params.capture = false → r.state.log = v.log :=
  replayLoop_induction (motive := fun _ _ v r => v.params.capture = false → r.state.log = v.log)
    (bails := fun _ _ v _ _ => by rw [bail_log, replayChecks_log])
    (ceiling := fun _ v _ _ => replayChecks_log cancel v)
    (halts := fun _ _ _ _ hturn _ hcapture => by rw [hturn.log, hcapture]; rfl)
    (goes := fun _ _ _ _ _ hturn _ ih hcapture => by
      rw [ih (by rwa [hturn.params]), hturn.log, hcapture]
      rfl) h

/-- A replay that ends in a halt has performed the step that halted. -/
theorem steps_ne_zero_of_halted {cancel : Nat → Bool} {tr : Trace} {fuel i : Nat} {v : State} {r : Replay}
    (h : replayLoop cancel tr fuel i v = .next r) : r.result = .halted → r.steps ≠ 0 :=
  replayLoop_induction (motive := fun _ _ _ r => r.result = .halted → r.steps ≠ 0)
    (bails := fun _ _ _ _ => nofun)
    (ceiling := fun _ _ _ => nofun)
    (halts := fun _ i _ _ _ _ _ => Nat.succ_ne_zero i)
    (goes := fun _ _ _ _ _ _ _ ih => ih) h

/-- With capture on, a replaying VM step logs one snapshot for each performed step, the last one of the state it ends in. -/
theorem logsReplay_of_execute {cancel : Nat → Bool} {tr : Trace} {s : State} {r : Replay}
    (h : execute cancel tr (beginVmStep s) = .next r) (hcapture : s.params.capture = true) :
    LogsReplay tr s r.steps (afterReplay r).log (afterReplay r).cpu := by
  obtain ⟨last, hlogs, hlast⟩ :=
    logsReplay_of_replayLoop h hcapture (StandsAfter.flush tr s) (LogsReplay.start tr s _)
  have hparams : r.state.params = s.params := (SameVm.ofExecute h).params
  rcases afterReplay_cases r with ⟨e, -, hsteps, heq⟩ | ⟨cpu, hend, heq⟩ | ⟨error, hpasses, heq⟩
  · rw [hsteps] at hlogs ⊢
    rw [heq]
    exact hlogs.of_no_step _
  · have hsteps : r.steps ≠ 0 := hend.elim (steps_ne_zero_of_halted h) id
    rw [heq, relogSnapshot_eq, hparams, if_pos hcapture]
    exact hlogs.relog hsteps cpu
  · rw [heq, ← hlast hpasses]
    exact hlogs

/-- With capture off, a replaying VM step logs nothing. -/
theorem log_of_execute {cancel : Nat → Bool} {tr : Trace} {s : State} {r : Replay}
    (h : execute cancel tr (beginVmStep s) = .next r) (hcapture : s.params.capture = false) :
    (afterReplay r).log = s.log := by
  have hlog := log_of_replayLoop h hcapture
  have hparams : r.state.params = s.params := (SameVm.ofExecute h).params
  rcases afterReplay_cases r with ⟨e, -, -, heq⟩ | ⟨cpu, -, heq⟩ | ⟨error, -, heq⟩
  · rw [heq]
    exact hlog
  · rw [heq, relogSnapshot_eq, hparams, hcapture]
    exact hlog
  · rw [heq]
    exact hlog

/-! ### The log of a VM step -/

/-- A step that performs one interpreter step logs the state it left, where capture is on. -/
theorem log_of_interpreter_cases {s t : State} (h : step s = .next t) (hreplay : ∀ tr, vmCase s ≠ .replay tr)
    (hfinalize : ∀ tr, vmCase s ≠ .finalize tr) : t.log = if s.params.capture then s.log ++ [t.cpu] else s.log := by
  obtain ⟨u, hu, ht⟩ := step_of_interpreter_cases h hreplay hfinalize
  have hparams : u.params = s.params := (SameVm.ofInterpStep hu).params
  have hlog : u.log = s.log := by rw [interpStep_vm hu]
  rw [ht, logSnapshot_eq]
  simp only [beginVmStep_params, beginVmStep_log, beginVmStep_cpu, hparams, hlog]

theorem log_of_finalize {s t : State} {tr : Trace} (hc : vmCase s = .finalize tr) (h : step s = .next t) :
    t.log = s.log := by
  rw [step_of_finalize hc] at h
  cases h
  rfl

/-- With capture off no case logs anything. -/
theorem log_of_capture_off {s t : State} (h : step s = .next t) (hcapture : s.params.capture = false) : t.log = s.log := by
  by_cases hfinalize : ∃ tr, vmCase s = .finalize tr
  · obtain ⟨tr, hc⟩ := hfinalize
    exact log_of_finalize hc h
  by_cases hreplay : ∃ tr, vmCase s = .replay tr
  · obtain ⟨tr, hc⟩ := hreplay
    obtain ⟨r, hr⟩ : ∃ r, execute Config.cancelDraw tr (beginVmStep s) = .next r := replayLoop_next ..
    rw [step_of_replay hc hr] at h
    cases h
    exact log_of_execute hr hcapture
  · rw [log_of_interpreter_cases h (not_exists.mp hreplay) (not_exists.mp hfinalize), hcapture]
    rfl

/-- Settles O55, case by case: the snapshot of the one interpreter step, none where a recording closes, and those of the
replayed steps. -/
theorem everyPerformedStepIsLogged : Obligations.EveryPerformedStepIsLogged := by
  intro s t h
  refine ⟨log_of_capture_off h, fun hcapture => ⟨fun ⟨tr, hc⟩ => log_of_finalize hc h, fun hfinalize hreplay => ?_,
    fun tr r hc hr => ?_⟩⟩
  · rw [log_of_interpreter_cases h hreplay hfinalize, if_pos hcapture]
  · rw [step_of_replay hc hr] at h
    cases h
    exact logsReplay_of_execute hr hcapture

end Sys2Proof.Proofs
end

section
/-! The ALU instructions, the jumps, the pair increments and the incrementing load and store (45_reference_microcode.md R214 to
R231, R234 to R238, R241 to R244): the whole next state of each, and what each leaves of RAM. -/

namespace Sys2Proof.Proofs

open Sys2Proof Sys2Proof.Machine Sys2Proof.Safety

/-! ### RAM after a retiring instruction -/

/-- Without `MI` an instruction writes no byte of RAM. -/
theorem readByte_of_retire_without_mi {sigs : List Signal} (hmi : sigs.contains .mi = false) {imm : Byte} {s t : State}
    (h : retire sigs imm s = .next t) (x : Addr) : readByte t.ram x = readByte s.ram x := by
  obtain ⟨-, hkeep⟩ := ramIsWrittenByMemoryInAlone Layout.reference (controlWord sigs) imm s
  cases h
  rw [hkeep ((asserted_controlWord sigs .mi).trans hmi)]

/-- After one write, its address reads as the byte written and every other as before. -/
theorem readByte_after_writeByte (m : Memory) (a : Addr) (v : Byte) :
    readByte (writeByte m a v) a = v ∧ ∀ x : Addr, x ≠ a → readByte (writeByte m a v) x = readByte m x := by
  obtain ⟨hsame, hother, -, -⟩ := memoryReadsTheLastWrite
  exact ⟨hsame m a v, fun x => hother m a x v⟩

/-! ### The word of an ALU instruction -/

/-- The signals of `ALU d` (carry input 1) and `ALUC d` (carry input 0). -/
def aluSignals (cin : Bool) (d : BusInput) : List Signal :=
  if cin then [d.signal, .eo, .fi] else [.carryIn, d.signal, .eo, .fi]

/-- The control word of `ALU d` or `ALUC d`. -/
def aluWord (cin : Bool) (d : BusInput) : ControlWord := controlWord (aluSignals cin d)

/-- The instruction `ALU d` or `ALUC d`. -/
def aluInstrOf (cin : Bool) (d : BusInput) (imm : Byte) : Instr := if cin then aluInstr d imm else alucInstr d imm

theorem exec_aluInstrOf (cin : Bool) (d : BusInput) (imm : Byte) (s : State) :
    exec (aluInstrOf cin d imm) s = retire (aluSignals cin d) imm s := by
  cases cin
  · exact exec_alucInstr d imm s
  · exact exec_aluInstr d imm s

/-- Beside `CarryIn`, `EO` and `FI`, an ALU instruction asserts its destination's signal alone. -/
theorem asserted_aluWord {sig : Signal} (hsig : sig ∉ [Signal.carryIn, .eo, .fi]) (cin : Bool) (d : BusInput) :
    asserted Layout.reference (aluWord cin d) sig = decide (sig = d.signal) := by
  obtain ⟨hcarry, heo, hfi⟩ : sig ≠ .carryIn ∧ sig ≠ .eo ∧ sig ≠ .fi := by simpa using hsig
  rw [aluWord, asserted_controlWord]
  cases cin <;> simp [aluSignals, hcarry, heo, hfi]

theorem asserted_aluWord_fi (cin : Bool) (d : BusInput) : asserted Layout.reference (aluWord cin d) .fi = true := by
  rw [aluWord, asserted_controlWord]
  cases cin <;> simp [aluSignals]

theorem asserted_aluWord_carryIn (cin : Bool) (d : BusInput) :
    asserted Layout.reference (aluWord cin d) .carryIn = !cin := by
  rw [aluWord, asserted_controlWord]
  cases cin <;> cases d <;> rfl

theorem winner_aluWord (cin : Bool) (d : BusInput) : winner Layout.reference (aluWord cin d) = some .eo := by
  cases cin <;> cases d <;> rfl

/-- The bus has the ALU's result. -/
theorem stepBus_aluWord (cin : Bool) (d : BusInput) (imm : Byte) (s : State) :
    stepBus Layout.reference (aluWord cin d) imm s = (stepAlu s imm cin).result := by
  rw [stepBus_of_winner (winner_aluWord cin d), if_pos rfl, asserted_aluWord_carryIn, Bool.not_not]

/-- No ALU instruction increments U:V. -/
theorem phase2Uv_aluWord (cin : Bool) (d : BusInput) (p : ProcessorState) :
    phase2Uv Layout.reference (aluWord cin d) p = p.uv := by
  rw [phase2Uv, asserted_aluWord (by decide)]
  cases d <;> rfl

/-! ### The step of an ALU instruction -/

/-- What `ALU d` or `ALUC d` makes of a state, for all nine destinations: the effects of every step, the ALU's result in the
destination, and its flags latched. -/
def aluStep (cin : Bool) (d : BusInput) (imm : Byte) (s : State) : State :=
  let c := common s imm (aluWord cin d) cin
  let r := stepAlu s imm cin
  { c with
    cpu := { writeRegister d r.result c.cpu with flags := r.flags }
    ram := if d = .mi then writeByte s.ram s.cpu.uv r.result else s.ram
    events := c.events ++ destinationEvents s r.result d }

theorem clock_aluWord (cin : Bool) (d : BusInput) (imm : Byte) (s : State) :
    clock Layout.reference (aluWord cin d) imm s = aluStep cin d imm s := by
  rw [clock_eq, winner_aluWord, stepBus_aluWord, phase2Uv_aluWord]
  simp only [asserted_aluWord_fi, asserted_aluWord_carryIn, Bool.not_not]
  simp (disch := decide) only [asserted_aluWord]
  cases d <;> simp [aluStep, common, writeRegister, destinationEvents, BusInput.signal]

theorem exec_aluInstrOf_eq_aluStep (cin : Bool) (d : BusInput) (imm : Byte) (s : State) :
    exec (aluInstrOf cin d imm) s = .next (aluStep cin d imm s) := by
  rw [exec_aluInstrOf, retire, ← aluWord, clock_aluWord]

/-- To a register, neither RAM nor a peripheral takes the result. -/
theorem aluStep_register {d : BusInput} (hd : isRegisterInput d = true) (cin : Bool) (imm : Byte) (s : State) :
    aluStep cin d imm s =
      let c := common s imm (aluWord cin d) cin
      let r := stepAlu s imm cin
      { c with cpu := { writeRegister d r.result c.cpu with flags := r.flags } } := by
  rw [aluStep, if_neg (ne_mi_of_register hd), destinationEvents_of_register hd, List.append_nil]
  rfl

/-- To any destination but M, no byte of RAM changes. -/
theorem readByte_of_exec_aluInstrOf {d : BusInput} (hd : d ≠ .mi) {cin : Bool} {imm : Byte} {s t : State}
    (h : exec (aluInstrOf cin d imm) s = .next t) (x : Addr) : readByte t.ram x = readByte s.ram x := by
  rw [exec_aluInstrOf_eq_aluStep] at h
  cases h
  rw [aluStep, if_neg hd]

/-- Settles O18, from the step of `ALU d` and `ALUC d` to any destination. -/
theorem aluToRegisterCompletes : Obligations.AluToRegisterCompletes := by
  intro d imm s hd
  have hexec := fun cin => (exec_aluInstrOf_eq_aluStep cin d imm s).trans (congrArg _ (aluStep_register hd cin imm s))
  refine ⟨hexec true, hexec false, ?_⟩
  rintro t (ht | ht)
  · exact readByte_of_exec_aluInstrOf (cin := true) (ne_mi_of_register hd) ht
  · exact readByte_of_exec_aluInstrOf (cin := false) (ne_mi_of_register hd) ht

/-- Settles O19: M is the destination whose result is written to RAM, P the one whose result is stored. -/
theorem aluToRamAndPeripheralCompletes : Obligations.AluToRamAndPeripheralCompletes := by
  refine ⟨fun imm s => ⟨?aluM, ?alucM, ?written⟩, fun imm s => ⟨?aluP, ?alucP, ?kept⟩⟩
  case aluM => exact exec_aluInstrOf_eq_aluStep true .mi imm s
  case alucM => exact exec_aluInstrOf_eq_aluStep false .mi imm s
  case aluP => exact exec_aluInstrOf_eq_aluStep true .pi imm s
  case alucP => exact exec_aluInstrOf_eq_aluStep false .pi imm s
  case written =>
    intro t cin ht
    have hexec : exec (aluInstrOf cin .mi imm) s = .next t := ht
    rw [exec_aluInstrOf_eq_aluStep] at hexec
    cases hexec
    exact readByte_after_writeByte ..
  case kept =>
    rintro t (ht | ht)
    · exact readByte_of_exec_aluInstrOf (cin := true) (d := .pi) (by decide) ht
    · exact readByte_of_exec_aluInstrOf (cin := false) (d := .pi) (by decide) ht

/-! ### The jumps -/

/-- A conditional jump is the taken jump or the no-op. -/
theorem jumpIf_eq (condition : Bool) (imm : Byte) (s : State) :
    jumpIf condition imm s = .next (if condition = true then controlStep [.j] imm s else controlStep [] imm s) := by
  cases condition
  · exact retire_eq_controlStep (sigs := []) (by decide) imm s
  · exact retire_eq_controlStep (sigs := [.j]) (by decide) imm s

theorem jumpIf_not_eq (condition : Bool) (imm : Byte) (s : State) :
    jumpIf (!condition) imm s = .next (if condition = false then controlStep [.j] imm s else controlStep [] imm s) := by
  rw [jumpIf_eq]
  cases condition <;> rfl

/-- A jump writes no byte of RAM, whether it is taken or not. -/
theorem readByte_of_jumpIf {condition : Bool} {imm : Byte} {s t : State} (h : jumpIf condition imm s = .next t) (x : Addr) :
    readByte t.ram x = readByte s.ram x :=
  readByte_of_retire_controlSignals (by cases condition <;> decide) h x

/-- Settles O21: `JMP` is `J` always, the others `J` or no signal as the latched flag says. -/
theorem jumpsGoToXYWhereTheirConditionHolds : Obligations.JumpsGoToXYWhereTheirConditionHolds := by
  intro imm s
  refine ⟨jumpIf_eq true imm s, jumpIf_eq s.cpu.flags.carry imm s, jumpIf_not_eq s.cpu.flags.carry imm s,
    jumpIf_eq s.cpu.flags.equal imm s, jumpIf_not_eq s.cpu.flags.equal imm s, ?_⟩
  rintro t (hjmp | hjc | hjnc | hje | hjne)
  · exact readByte_of_jumpIf (condition := true) hjmp
  · exact readByte_of_jumpIf hjc
  · exact readByte_of_jumpIf hjnc
  · exact readByte_of_jumpIf hje
  · exact readByte_of_jumpIf hjne

/-! ### The pair increments -/

/-- The signals that increment a pair. -/
def pairIncrements : List Signal := [.xyInc, .uvInc]

/-- A set of pair increments asserts no other signal. -/
theorem asserted_of_pairIncrements {sigs : List Signal} (hsigs : sigs ⊆ pairIncrements) {sig : Signal}
    (hsig : sig ∉ pairIncrements) : asserted Layout.reference (controlWord sigs) sig = false := by
  rw [asserted_controlWord, List.contains_eq_mem, decide_eq_false (fun hmem => hsig (hsigs hmem))]

/-- What `XYInc` and `UVInc` make of a state, each where the set has it. -/
def incrementStep (sigs : List Signal) (imm : Byte) (s : State) : State :=
  let c := common s imm (controlWord sigs) true
  { c with
    cpu := { c.cpu with
      x := if sigs.contains .xyInc then highByte (s.cpu.xy + 1) else s.cpu.x
      y := if sigs.contains .xyInc then lowByte (s.cpu.xy + 1) else s.cpu.y
      u := if sigs.contains .uvInc then highByte (s.cpu.uv + 1) else s.cpu.u
      v := if sigs.contains .uvInc then lowByte (s.cpu.uv + 1) else s.cpu.v } }

/-- With the pair increments alone the bus is not driven, and no latch overrides an increment. -/
theorem retire_eq_incrementStep {sigs : List Signal} (hsigs : sigs ⊆ pairIncrements) (imm : Byte) (s : State) :
    retire sigs imm s = .next (incrementStep sigs imm s) := by
  have hwinner : winner Layout.reference (controlWord sigs) = none :=
    winner_eq_none fun o => asserted_of_pairIncrements hsigs (by cases o <;> decide)
  rw [retire, clock_eq, hwinner]
  simp (disch := decide) only [asserted_of_pairIncrements hsigs]
  simp [asserted_controlWord, incrementStep, common]

/-- Settles O23: `XYInc` alone and `UVInc` alone. -/
theorem pairInstructionsIncrementThePair : Obligations.PairInstructionsIncrementThePair := by
  refine fun imm s => ⟨retire_eq_incrementStep (sigs := [.xyInc]) (by decide) imm s,
    retire_eq_incrementStep (sigs := [.uvInc]) (by decide) imm s, ?_⟩
  rintro t (ht | ht)
  · exact readByte_of_retire_without_mi (sigs := [.xyInc]) rfl ht
  · exact readByte_of_retire_without_mi (sigs := [.uvInc]) rfl ht

/-! ### The load and the store with increment -/

/-- `LDAI` reads in phase 1, before the increment (R243). -/
theorem retire_ldai (imm : Byte) (s : State) :
    let c := common s imm (controlWord [.mo, .ai, .uvInc]) true
    let v := readByte s.ram s.cpu.uv
    retire [.mo, .ai, .uvInc] imm s =
      .next { c with
        cpu := { c.cpu with a := v, u := highByte (s.cpu.uv + 1), v := lowByte (s.cpu.uv + 1) }
        events := c.events ++ [.memRead s.cpu.uv v] } := by
  have hwinner : winner Layout.reference (controlWord [.mo, .ai, .uvInc]) = some .mo := rfl
  have hbus : stepBus Layout.reference (controlWord [.mo, .ai, .uvInc]) imm s = readByte s.ram s.cpu.uv :=
    stepBus_of_winner hwinner imm s
  rw [retire, clock_eq, hwinner, hbus]
  simp [asserted_controlWord, common]

/-- `STAI` writes in phase 2, after the increment (R244). -/
theorem retire_stai (imm : Byte) (s : State) :
    let c := common s imm (controlWord [.ao, .mi, .uvInc]) true
    retire [.ao, .mi, .uvInc] imm s =
      .next { c with
        cpu := { c.cpu with u := highByte (s.cpu.uv + 1), v := lowByte (s.cpu.uv + 1) }
        ram := writeByte s.ram (s.cpu.uv + 1) s.cpu.a
        events := c.events ++ [.memWrite (s.cpu.uv + 1) s.cpu.a] } := by
  have hwinner : winner Layout.reference (controlWord [.ao, .mi, .uvInc]) = some .ao := rfl
  have hbus : stepBus Layout.reference (controlWord [.ao, .mi, .uvInc]) imm s = s.cpu.a := stepBus_of_winner hwinner imm s
  have huv : phase2Uv Layout.reference (controlWord [.ao, .mi, .uvInc]) s.cpu = s.cpu.uv + 1 := rfl
  rw [retire, clock_eq, hwinner, hbus, huv]
  simp [asserted_controlWord, common]

/-- Settles O24: of the two only `STAI` asserts `MI`, and it writes one byte, at the incremented U:V. -/
theorem loadAndStoreWithIncrement : Obligations.LoadAndStoreWithIncrement := by
  refine fun imm s => ⟨retire_ldai imm s, fun t ht => ?_, retire_stai imm s, fun t ht => ?_⟩
  · exact readByte_of_retire_without_mi (sigs := [.mo, .ai, .uvInc]) rfl ht
  · have hstore := (retire_stai imm s).symm.trans ht
    cases hstore
    exact readByte_after_writeByte ..

end Sys2Proof.Proofs
end

section
/-! The moves to M and P (46_reference_moves.md R330 to R353): the step of a move to any destination, and what it leaves of
RAM. -/

namespace Sys2Proof.Proofs

open Sys2Proof Sys2Proof.Machine Sys2Proof.Safety

/-! ### The step of a move -/

/-- What `MOV d, s` makes of a state, for all nine destinations: the effects of every step, the source's read, and the
destination's latch, write or store. -/
def moveStep (o : BusOutput) (d : BusInput) (imm : Byte) (s : State) : State :=
  let c := common s imm (moveWord o d) true
  let v := sourceValue s imm o
  { c with
    cpu := writeRegister d v c.cpu
    ram := if d = .mi then writeByte s.ram s.cpu.uv v else s.ram
    events := c.events ++ sourceEvents s imm o ++ destinationEvents s v d
    periphDraws := s.periphDraws + sourceDraws s o }

theorem exec_movInstr_eq_moveStep (o : BusOutput) (d : BusInput) (imm : Byte) (s : State) :
    exec (movInstr o d imm) s = .next (moveStep o d imm s) := by
  rw [exec_movInstr_eq_clock, clock_frame, clock_moveWord_cpu, clock_moveWord_ram, clock_moveWord_events,
    clock_moveWord_periphDraws]
  rfl

/-- A move to M writes the source's value at U:V, and no other byte. -/
theorem readByte_moveStep_mi (o : BusOutput) (imm : Byte) (s : State) :
    readByte (moveStep o .mi imm s).ram s.cpu.uv = sourceValue s imm o ∧
      ∀ x : Addr, x ≠ s.cpu.uv → readByte (moveStep o .mi imm s).ram x = readByte s.ram x :=
  readByte_after_writeByte s.ram s.cpu.uv (sourceValue s imm o)

/-- To any destination but M, RAM stays. -/
theorem moveStep_ram_of_ne_mi {d : BusInput} (hd : d ≠ .mi) (o : BusOutput) (imm : Byte) (s : State) :
    (moveStep o d imm s).ram = s.ram := if_neg hd

/-! ### The destinations M and P -/

/-- Settles O16: M is the destination that RAM takes the bus for. -/
theorem movToRamCompletes : Obligations.MovToRamCompletes := by
  intro o imm s c v
  have hexec := exec_movInstr_eq_moveStep o .mi imm s
  refine ⟨hexec, fun t ht => ?_⟩
  rw [hexec] at ht
  cases ht
  exact readByte_moveStep_mi o imm s

/-- Settles O17: P's store is an event alone, after the source's read. -/
theorem movToPeripheralCompletes : Obligations.MovToPeripheralCompletes := by
  intro o imm s c
  have hexec := exec_movInstr_eq_moveStep o .pi imm s
  refine ⟨hexec, fun t ht x => ?_⟩
  rw [hexec] at ht
  cases ht
  rw [moveStep_ram_of_ne_mi (by decide)]

end Sys2Proof.Proofs
end

section
/-! Bounded runs and runs until stopped (60_exceptions.md R361): what `runVm` does on a halted core, with no budget left, and
with a step to make; that its budget or a halt ends it; and that the host's choice to stop is a choice of the budget. -/

namespace Sys2Proof.Proofs

open Sys2Proof Sys2Proof.Machine Sys2Proof.Safety

/-! ### The bounded run, case by case -/

theorem runVm_of_halted {s : State} (hs : s.isHalted = true) (n : Nat) : runVm n s = .next (s, .halted) := by
  rw [runVm.eq_def]
  exact if_pos hs

theorem runVm_zero {s : State} (hs : s.isHalted = false) : runVm 0 s = .next (s, .stepBudgetExceeded) := by
  rw [runVm.eq_def]
  exact if_neg (Bool.eq_false_iff.mp hs)

theorem runVm_succ {s u : State} (hs : s.isHalted = false) (hu : step s = .next u) (n : Nat) :
    runVm (n + 1) s = runVm n u := by
  have hcall : vmStep s = .next u := hu
  rw [runVm.eq_def]
  simp only [hs, Bool.false_eq_true, if_false, hcall, andThen_next]

/-! ### The steps of a bounded run -/

theorem core_run_succ {M : Host.Core} {s u : M.State} (hu : M.step s = .next u) (k : Nat) :
    Host.Core.run M (k + 1) s = Host.Core.run M k u := by
  rw [Host.Core.run, hu]

/-- The first `k` VM steps from `s` are each made on a core that is not halted. -/
def NotHaltedBefore (k : Nat) (s : State) : Prop :=
  ∀ j, j < k → ∃ u : State, Host.Core.run Sys2Proof.core j s = .next u ∧ u.isHalted = false

theorem notHaltedBefore_zero (s : State) : NotHaltedBefore 0 s := fun j hj => absurd hj j.not_lt_zero

theorem NotHaltedBefore.succ {s u : State} {k : Nat} (hs : s.isHalted = false) (hu : step s = .next u)
    (h : NotHaltedBefore k u) : NotHaltedBefore (k + 1) s := by
  intro j hj
  cases j with
  | zero => exact ⟨s, rfl, hs⟩
  | succ j =>
    rw [core_run_succ (M := Sys2Proof.core) hu]
    exact h j (Nat.lt_of_succ_lt_succ hj)

/-- A bounded run makes `k` steps, up to a halt or to its whole budget, and its answer says which (R361). -/
theorem runVm_ends (n : Nat) (s : State) : ∃ (t : State) (r : RunResult), runVm n s = .next (t, r) ∧
    (r = .halted ↔ t.isHalted = true) ∧
    ∃ k, k ≤ n ∧ Host.Core.run Sys2Proof.core k s = .next t ∧ (r = .stepBudgetExceeded → k = n) ∧ NotHaltedBefore k s := by
  induction n generalizing s with
  | zero =>
    cases hs : s.isHalted with
    | true => exact ⟨s, _, runVm_of_halted hs 0, by simp [hs], 0, le_rfl, rfl, fun _ => rfl, notHaltedBefore_zero s⟩
    | false => exact ⟨s, _, runVm_zero hs, by simp [hs], 0, le_rfl, rfl, fun _ => rfl, notHaltedBefore_zero s⟩
  | succ n ih =>
    cases hs : s.isHalted with
    | true => exact ⟨s, _, runVm_of_halted hs _, by simp [hs], 0, Nat.zero_le _, rfl, nofun, notHaltedBefore_zero s⟩
    | false =>
      obtain ⟨u, hu⟩ := step_next s
      obtain ⟨t, r, hrun, hanswer, k, hk, hsteps, hbudget, hbefore⟩ := ih u
      refine ⟨t, r, by rw [runVm_succ hs hu, hrun], hanswer, k + 1, Nat.succ_le_succ hk, ?_, ?_, hbefore.succ hs hu⟩
      · rw [core_run_succ (M := Sys2Proof.core) hu, hsteps]
      · exact fun hr => congrArg (· + 1) (hbudget hr)

/-! ### The run until stopped -/

/-- The answer of the bounded run that ends where a run until stopped ends: the host's stop is a spent budget. -/
def RunEnd.boundedAnswer : RunEnd → RunResult
  | .halted => .halted
  | .stopped => .stepBudgetExceeded

/-- The budget is the number of steps made before the host stops the run (assumption 21). -/
theorem RunsUntilStopped.exists_runVm {s t : State} {e : RunEnd} (h : RunsUntilStopped s t e) :
    ∃ n, runVm n s = .next (t, RunEnd.boundedAnswer e) := by
  induction h with
  | halts s hs => exact ⟨0, runVm_of_halted hs 0⟩
  | stops s hs => exact ⟨0, runVm_zero hs⟩
  | goesOn s u t e hs hu _ ih =>
    obtain ⟨n, hn⟩ := ih
    exact ⟨n + 1, by rw [runVm_succ hs hu, hn]⟩

/-- The host may stop the run when as many steps have been made as the budget allows (assumption 21). -/
theorem runsUntilStopped_of_runVm {n : Nat} {s t : State} {e : RunEnd}
    (h : runVm n s = .next (t, RunEnd.boundedAnswer e)) : RunsUntilStopped s t e := by
  induction n generalizing s with
  | zero =>
    cases hs : s.isHalted with
    | true =>
      rw [runVm_of_halted hs] at h
      cases e <;> cases h
      exact .halts _ hs
    | false =>
      rw [runVm_zero hs] at h
      cases e <;> cases h
      exact .stops _ hs
  | succ n ih =>
    cases hs : s.isHalted with
    | true =>
      rw [runVm_of_halted hs] at h
      cases e <;> cases h
      exact .halts _ hs
    | false =>
      obtain ⟨u, hu⟩ := step_next s
      rw [runVm_succ hs hu] at h
      exact .goesOn s u t e hs hu (ih h)

theorem runsUntilStopped_iff (s t : State) (e : RunEnd) :
    RunsUntilStopped s t e ↔ ∃ n, runVm n s = .next (t, RunEnd.boundedAnswer e) :=
  ⟨RunsUntilStopped.exists_runVm, fun ⟨_, h⟩ => runsUntilStopped_of_runVm h⟩

/-- Settles O58, by induction on the budget, and on the steps before the host stops the run. -/
theorem boundedRunStopsAtHaltOrBudget : Obligations.BoundedRunStopsAtHaltOrBudget :=
  ⟨runVm_ends, fun s t => runsUntilStopped_iff s t .halted, fun s t => runsUntilStopped_iff s t .stopped⟩

end Sys2Proof.Proofs
end
